-- ==== Sys2Proof/Word.lean ====
section
/-! DEFINITION. The word types of V0: the 32-bit word of registers and addresses (R4, R13, R18),
the byte (R31), the 7-bit `val` field (R3, R69) and the identifier of a register operand (R13, R17). -/

namespace Sys2Proof

/-- A register value or an address: `XLEN` = `ALEN` = 32 (R4). -/
abbrev Word := BitVec 32

/-- The addressing unit: 8 bits (R4, R31). -/
abbrev Byte := BitVec 8

/-- The unsigned 7-bit `val` field of the parcel (R3, R67, R69). -/
abbrev Val := BitVec 7

/-- A register an instruction may name as an operand: R0 to R14 (R13). R15, the program counter, is
no operand: a register field that names it is refused as `PcOperand` by the decoder (R17). -/
abbrev Reg := Fin 15

/-- R13/SP, the stack pointer (R15). -/
abbrev spReg : Reg := 13

/-- R14/LR, the link register (R15). -/
abbrev lrReg : Reg := 14

end Sys2Proof
end

