-- ==== Sys2Proof/Config.lean ====
section
/-! DEFINITION. The implementation parameters of R4: those the spec decides, as numbers, and those it
leaves OPEN, as opaque constants (free values: no proof can see what they are, so a claim holds for
every value of them). -/

namespace Sys2Proof.Config

/-- `SHIFT_MAX`: the largest admitted shift count (R4, R173). -/
def shiftMax : Nat := 31

/-- `NUM_IRQ`: the number of interrupt lines (R4, R103). -/
def numIrq : Nat := 32

/-- `MULDIV_SIGNED`: MLH, DIV and REM read their operands as two's complement (R4, R151 (e)). -/
def muldivSigned : Bool := true

/-- `RESET_PC`: OPEN in the spec. DESIGN CHOICE 0x100, an even address (log entry 2; unsafe). -/
def resetPc : Word := 0x100

/-- The address space: 2^32 byte addresses (R31, R40). -/
def addressSpace : Nat := 2 ^ 32

/-- `EXT_SRC_BITS` less one, OPEN: a free value of 0..31 (R4, R132; log entry 6). -/
opaque extSrcBitsLessOne : Fin 32

/-- `EXT_SRC_BITS`: the width ZEX and SEX extend from, 1 to 32 (R132, R133). -/
def extSrcBits : Nat := extSrcBitsLessOne.val + 1

/-- `CACHELINE` less one, OPEN: a free value (R4, R106; log entry 7). -/
opaque cachelineLessOne : Nat

/-- `CACHELINE`: the bytes of a cache line, at least 1 (R4, R106). -/
def cacheline : Nat := cachelineLessOne + 1

/-- `draw(32)`: the `n`-th undetermined word of a run (R6, R109, R111; log entry 5). -/
opaque draw : Nat → Word

/-- `cfg.irp1`, the single-iteration reciprocal: uninterpreted (R4, R147; log entry 8). -/
opaque irp1 : Word → Word

/-- `cfg.irp2`, the second iteration of the reciprocal: uninterpreted (R4, R148; log entry 8). -/
opaque irp2 : Word → Word

/-- `cfg.swp8`, the "8-bit" byte swap: uninterpreted (R4, R183; log entry 8). -/
opaque swp8 : Word → Word

/-- `cfg.swp16`, the "16-bit" byte swap: uninterpreted (R4, R183; log entry 8). -/
opaque swp16 : Word → Word

/-- `cfg.bcd_encode`: uninterpreted (R4, R184; log entry 8). -/
opaque bcdEncode : Word → Word

/-- `cfg.bcd_decode`: uninterpreted (R4, R185; log entry 8). -/
opaque bcdDecode : Word → Word

/-- `cfg.crc16`, the 16-bit CRC: named by R4 and applied by no rule, as CRC has no operand list (R186);
that it is a function of one word is the model's choice (log entry 8). -/
opaque crc16 : Word → Word

/-- `cfg.crc32`, the 32-bit CRC: named by R4 and applied by no rule (R186; log entry 8). -/
opaque crc32 : Word → Word

/-- `cfg.ecc`: named by R4 and applied by no rule, as ECC has no operand list (R187; log entry 8). -/
opaque ecc : Word → Word

/-- `cfg.tmhash32` with its inverse `cfg.tmunhash32`: an uninterpreted permutation of the words, as
"unhash" undoes "hash" for every word (R188, R189; log entry 9). -/
opaque hashPerm : Equiv.Perm Word

/-- `cfg.tmhash32` (R188). -/
def tmhash32 (a : Word) : Word := hashPerm a

/-- `cfg.tmunhash32` (R189). -/
def tmunhash32 (a : Word) : Word := hashPerm.symm a

/-- `OpNumbering`: the operation numbers of the SYS, ALU and MULTI units, which the source does not give (R4,
R83). A replaceable parameter; the provisional numbers are `Config.opNumbering` (Decode.lean). -/
structure OpNumbering where
  /-- the SYS unit -/
  (hlt rst int sti cli rcl wfe sev rpc ldx stx ipg pfc flc plk brd bwr bar : BitVec 5)
  /-- the ALU unit -/
  (not neg and ior xor inc dec add adc sub sbb cmp zex sex : BitVec 5)
  /-- the MULTI unit -/
  (mul mlh div rem msl msr mad irp1 irp2 irp : BitVec 5)

end Sys2Proof.Config
end

