-- ==== Sys2Proof/Syntax/Operand.lean ====
section
/-! DEFINITION. The operand forms of the source's notation (R7, R68), the instruction record (R62)
and the names of the well-formedness checks (R74). -/

namespace Sys2Proof

/-- An `ri1` operand: register `r1`, or the immediate `i` held by the argument parcel (R7, R70). -/
inductive RI where
  /-- the register form, `IMM` clear -/
  | reg (r : Reg)
  /-- the immediate form, `IMM` set -/
  | imm (i : Word)
deriving DecidableEq, Repr

/-- A `vr1` operand: the value `v` when the VAL bit is set, else register `r1` (R71). -/
inductive VR where
  /-- VAL set: the `val` field -/
  | val (v : Val)
  /-- VAL clear: a register -/
  | reg (r : Reg)
deriving DecidableEq, Repr

/-- An `adr` operand: a base register when V0_REG_ADR is set, an offset from the argument parcel
when V0_NDX_ADR is set (R72). -/
structure Adr where
  /-- the base register (`REG`) -/
  base : Option Reg
  /-- the offset (`NDX`) -/
  off : Option Word
deriving DecidableEq, Repr

/-- The instruction record: the decoded fields of one instruction, at no bit position (R62). -/
structure Record where
  /-- the unit code -/
  unit : BitVec 4
  /-- the operation number within the unit, as wide as the selector word has it (R75) -/
  op : BitVec 5
  /-- V0_VAL_BIT -/
  val1 : Bool
  /-- FLAG1 -/
  flag1 : Bool
  /-- FLAG2 -/
  flag2 : Bool
  /-- the val field -/
  val : Val
  /-- register ID `r1` -/
  r1 : BitVec 4
  /-- register ID `r2` -/
  r2 : BitVec 4
  /-- V0_NDX_ADR -/
  ndx : Bool
  /-- V0_REG_ADR -/
  reg : Bool
  /-- the `ri1` or `i` operand is the argument parcel (R70) -/
  imm : Bool
  /-- the optional `<ri1>` operand is present (R73) -/
  p1 : Bool
  /-- the argument parcel's value (R65) -/
  arg : Word
deriving DecidableEq, Repr

/-- The named checks of R74 whose refusal reason is `IllFormed(check)`. -/
inductive WfCheck where
  | selector | oneArg | imm | adr | p1 | shift | cond | text
deriving DecidableEq, Repr

/-- Why the decoder rejects a record (R74). -/
inductive Reject where
  /-- a named check fails: `IllFormed(check)` -/
  | illFormed (c : WfCheck)
  /-- WF_PC: a register field the format uses names R15 (R17) -/
  | pcOperand
deriving DecidableEq, Repr

end Sys2Proof
end

