-- ==== Sys2Proof/Syntax.lean ====
section
/-! DEFINITION. The instructions of V0: one constructor per row of spec/opcode_table.json, with the
operands the row's format has (R68, R77). -/

namespace Sys2Proof

/-- A V0 instruction, in the order of the opcode table. `d` is the `r2` field that is written, `src`
an `ri1` operand, `v` the `val` field, `adr` an address operand. -/
inductive Instr where
  -- SYS unit (40_sys.md)
  | nop
  | hlt (m : Option RI) (save : Adr)
  | rst (n : VR)
  | int (n : VR)
  | sti (m : Option RI) (save : Adr)
  | cli (m : Option RI) (save : Adr)
  | rcl (adr : Adr)
  | wfe (v : Val)
  | sev (v : Val)
  | rpc (v : Val) (d : Reg)
  | ldx (v : Val) (r : Reg)
  | stx (v : Val) (adr : Adr)
  | ipg (adr : Adr)
  | pfc (adr : Adr)
  | flc
  | plk (adr : Adr)
  | brd
  | bwr
  | bar
  -- ALU unit (41_alu.md)
  | not (src : RI) (d : Reg)
  | neg (src : RI) (d : Reg)
  | and (src : RI) (d : Reg)
  | ior (src : RI) (d : Reg)
  | xor (src : RI) (d : Reg)
  | inc (d : Reg)
  | dec (d : Reg)
  | add (src : RI) (d : Reg)
  | adc (src : RI) (d : Reg)
  | sub (src : RI) (d : Reg)
  | sbb (src : RI) (d : Reg)
  | cmp (src : RI) (r : Reg)
  | zex (src : RI) (d : Reg)
  | sex (src : RI) (d : Reg)
  -- MULTI unit (42_multi.md)
  | mul (src : RI) (d : Reg)
  | mlh (src : RI) (d : Reg)
  | div (src : RI) (d : Reg)
  | rem (src : RI) (d : Reg)
  | msl (v : Val) (src : RI) (d : Reg)
  | msr (v : Val) (r : Reg) (d : Reg)
  | mad (i : Word) (r : Reg) (d : Reg)
  | irp1 (src : RI) (d : Reg)
  | irp2 (d : Reg)
  | irp (src : RI) (d : Reg)
  -- SHIFT unit (43_shift.md)
  | shl (v : Val) (r : Reg) (d : Reg)
  | shr (v : Val) (r : Reg) (d : Reg)
  | sra (v : Val) (r : Reg) (d : Reg)
  | rol (v : Val) (r : Reg) (d : Reg)
  | ror (v : Val) (r : Reg) (d : Reg)
  | sla (v : Val) (src : RI) (d : Reg)
  | slr (v : Val) (src : RI) (d : Reg)
  | sal (v : Val) (r : Reg) (d : Reg)
  | sar (v : Val) (r : Reg) (d : Reg)
  | slm (v : Val) (src : RI) (d : Reg)
  | srm (v : Val) (src : RI) (d : Reg)
  | sml (v : Val) (src : RI) (d : Reg)
  | smr (v : Val) (src : RI) (d : Reg)
  -- BIT unit (44_bit.md)
  | clz (src : RI) (d : Reg)
  | ham (src : RI) (d : Reg)
  | par (src : RI) (d : Reg)
  | swp (wide : Bool) (src : RI) (d : Reg)
  | bec (src : RI) (d : Reg)
  | bdc (src : RI) (d : Reg)
  | crc (wide : Bool)
  | ecc
  | hsh (src : RI) (d : Reg)
  | hun (src : RI) (d : Reg)
  -- ATOM unit (45_atom.md)
  | ldl
  | stl
  | btc
  | bts
  | xadd
  | xinc
  | xdec
  | cas
  -- FLOW unit (46_flow.md)
  | jmp (adr : Adr)
  | jmr
  | bzf (adr : Adr)
  | beq (adr : Adr)
  | bne (adr : Adr)
  | blt (adr : Adr)
  | ble (adr : Adr)
  | bgt (adr : Adr)
  | bge (adr : Adr)
  | bcf (adr : Adr)
  | bnc (adr : Adr)
  | bof (adr : Adr)
  | bno (adr : Adr)
  | bsf (adr : Adr)
  | bns (adr : Adr)
  | beg
  | fin
  | mkf (v : Val)
  | csr (adr : Adr)
  | sys
  | thr
  | thc (v : Val)
  | thw
  | thy
  | ret
  | srt
  | thx
  | irt
  -- XFER unit (47_xfer.md)
  | ckr
  | ckw
  | ckx
  | ldr (adr : Adr) (d : Reg)
  | ldn
  | ldc (v : Val)
  | str (r : Reg) (adr : Adr)
  | stn
  | stc (v : Val)
  | psh (r : Reg)
  | psm
  | pop (d : Reg)
  | pom
  | ioc (v : Val)
  | iop
  | ird
  | iwr
deriving DecidableEq, Repr

end Sys2Proof
end

