-- ==== Sys2Proof/WellFormed.lean ====
section
/-! DEFINITION. The checks of R74 that concern an instruction's operands, over the syntax: WF_SHIFT
and WF_ONE_ARG. The checks that concern a record's fields (WF_SELECTOR, WF_ONE_ARG, WF_IMM, WF_ADR,
WF_P1, WF_SHIFT, WF_COND, WF_PC) are the decoder's (Decode.lean); WF_TEXT is the fetch's
(Machine/Fetch.lean). WF_PC holds of every term: a `Reg` never names R15. -/

namespace Sys2Proof

/-- The shift or rotate count of an instruction whose `v` is one: MSL, MSR and the whole SHIFT unit
(R74, R173). -/
def shiftCount? : Instr → Option Val
  | .msl v _ _ | .msr v _ _ => some v
  | .shl v _ _ | .shr v _ _ | .sra v _ _ | .rol v _ _ | .ror v _ _ => some v
  | .sla v _ _ | .slr v _ _ | .sal v _ _ | .sar v _ _ => some v
  | .slm v _ _ | .srm v _ _ | .sml v _ _ | .smr v _ _ => some v
  | _ => none

/-- A shift count the spec admits: 0 to `SHIFT_MAX` (R173). -/
def goodCount (v : Val) : Bool := v.toNat ≤ Config.shiftMax

/-- WF_SHIFT (R74). -/
def wfShift (i : Instr) : Bool := (shiftCount? i).all goodCount

/-- The optional mask and address operands of an instruction of format OPT_RI_ADR (R68). -/
def optOperands? : Instr → Option (Option RI × Adr)
  | .hlt m a | .sti m a | .cli m a => some (m, a)
  | _ => none

/-- Both the mask and the address offset ask for the one argument parcel (R60, R74). -/
def twoArgs : Option RI → Adr → Bool
  | some (.imm _), ⟨_, some _⟩ => true
  | _, _ => false

/-- WF_ONE_ARG (R74). -/
def wfOneArg (i : Instr) : Bool := (optOperands? i).all fun p => !twoArgs p.1 p.2

/-- An instruction that a well-formed record can stand for (R74). -/
def wellFormed (i : Instr) : Bool := wfOneArg i && wfShift i

end Sys2Proof
end

