-- ==== Sys2Proof/Decode.lean ====
section
/-! DEFINITION. The decoder and the encoder: the selector word (R75), the opcode table (R77), the
formats and the fields each uses (R68), the well-formedness checks on a record in the order of R74,
and the model's own numbering of a record's bits. -/

namespace Sys2Proof

/-! ## The selector and the length -/

/-- The 19-bit selector word `SEL` of a record (R75). -/
def Record.sel (r : Record) : BitVec 19 :=
  r.unit ++ r.op ++ BitVec.ofBool r.val1 ++ BitVec.ofBool r.flag1 ++ BitVec.ofBool r.flag2 ++ r.val

/-- The selector of the parcel of all 1-bits, NOP (R76). -/
def nopSel : BitVec 19 := 0x7FFFF

/-- Whether the instruction has an argument parcel: `IMM or NDX`; NOP has none (R63, R76). -/
def Record.hasArg (r : Record) : Bool := r.sel != nopSel && (r.imm || r.ndx)

/-- The address of the argument parcel: `pc + 2` rounded up to a multiple of 4 (R64). -/
def argAddr (pc : Word) : Word := (pc + 2 + 3) &&& ~~~3#32

/-- The address of the sequentially next instruction (R66), modulo 2^32 (R20). -/
def nextAddr (pc : Word) (hasArg : Bool) : Word := if hasArg then argAddr pc + 4 else pc + 2

/-! ## The fields as operands -/

/-- A register field as an operand; 15 is refused (WF_PC, R17, R74). Which fields a record uses is settled
by the operand readers below (log entry 25). -/
def regOf (x : BitVec 4) : Except Reject Reg :=
  if h : x.toNat < 15 then .ok ⟨x.toNat, h⟩ else .error .pcOperand

/-- The `ri1` operand of a record (R70). With IMM set, r1 is no operand and r1 = 15 is no PcOperand: the
model's choice (log entry 25). -/
def readSrc (r : Record) : Except Reject RI :=
  if r.imm then .ok (.imm r.arg) else (regOf r.r1).map .reg

/-- The optional `<ri1>` operand of a record: present exactly when `P1` is set (R73). With `P1` clear,
r1 is no operand and r1 = 15 is no PcOperand: the model's choice (log entry 25). -/
def readOpt (r : Record) : Except Reject (Option RI) :=
  if r.p1 then (readSrc r).map some else .ok none

/-- The `vr1` operand of a record (R71). With VAL set, r1 is no operand and r1 = 15 is no PcOperand: the
model's choice (log entry 25). -/
def readVr (r : Record) : Except Reject VR :=
  if r.val1 then .ok (.val r.val) else (regOf r.r1).map .reg

/-- The `adr` operand of a record whose base register field is `rb` (R72). With REG clear, rb is no operand
and rb = 15 is no PcOperand: the model's choice (log entry 25). -/
def readAdr (rb : BitVec 4) (r : Record) : Except Reject Adr :=
  let off := if r.ndx then some r.arg else none
  if r.reg then (regOf rb).map fun b => ⟨some b, off⟩ else .ok ⟨none, off⟩

/-! ## The formats -/

/-- The formats of R68, each with the instruction it reads. NOP is read from the whole parcel, before
any field (R76). SWP and CRC have FLAG1 as a variant bit inside the row (R183, R186). -/
inductive Format where
  | parcel (k : Instr)
  | none (k : Instr)
  | optRiAdr (k : Option RI → Adr → Instr)
  | vr (k : VR → Instr)
  | adr (k : Adr → Instr)
  | v (k : Val → Instr)
  | vR (k : Val → Reg → Instr)
  | vAdr (k : Val → Adr → Instr)
  | riR (k : RI → Reg → Instr)
  | riRFlag (k : Bool → RI → Reg → Instr)
  | r (k : Reg → Instr)
  | ri (k : RI → Reg → Instr)
  | vRiR (k : Val → RI → Reg → Instr)
  | vRR (k : Val → Reg → Reg → Instr)
  | iRR (k : Word → Reg → Reg → Instr)
  | condAdr (k : Adr → Instr)
  | adrR (k : Adr → Reg → Instr)
  | rAdr (k : Reg → Adr → Instr)
  | unknown (k : Instr)
  | unknownV (k : Val → Instr)
  | unknownFlag (k : Bool → Instr)

/-- The format has an `ri1` or `i` operand, so `IMM` may be set (WF_IMM, R74). -/
def Format.hasImm : Format → Bool
  | .optRiAdr _ | .riR _ | .riRFlag _ | .ri _ | .vRiR _ | .iRR _ => true
  | _ => false

/-- The format's operand is always the immediate `i`, so `IMM` must be set (WF_IMM, R74). -/
def Format.needsImm : Format → Bool
  | .iRR _ => true
  | _ => false

/-- The format has an `adr` operand, so `NDX` and `REG` may be set (WF_ADR, R74). -/
def Format.hasAdr : Format → Bool
  | .optRiAdr _ | .adr _ | .vAdr _ | .condAdr _ | .adrR _ | .rAdr _ => true
  | _ => false

/-- The format has the optional `<ri1>`, so `P1` may be set (WF_P1, R74). -/
def Format.hasOpt : Format → Bool
  | .optRiAdr _ => true
  | _ => false

/-- The format's `v` is a shift or rotate count: every instruction of formats V_RI_R and V_R_R is
MSL, MSR or one of the SHIFT unit (R68, WF_SHIFT of R74). -/
def Format.hasCount : Format → Bool
  | .vRiR _ | .vRR _ => true
  | _ => false

/-- The format's `val` is a branch condition code (WF_COND, R74). -/
def Format.hasCond : Format → Bool
  | .condAdr _ => true
  | _ => false

/-- The record is recognised before any of its fields is looked at (R76). -/
def Format.whole : Format → Bool
  | .parcel _ => true
  | _ => false

/-- The checks of R74 after WF_SELECTOR and before WF_PC, in its order; the first that fails. -/
def Format.check (f : Format) (r : Record) : Option WfCheck :=
  if f.whole then Option.none
  else if r.imm && r.ndx then some .oneArg
  else if (r.imm && !f.hasImm) || (f.needsImm && !r.imm) then some .imm
  else if (r.ndx || r.reg) && !f.hasAdr then some .adr
  else if (r.p1 && !f.hasOpt) || (f.hasOpt && r.imm && !r.p1) then some .p1
  else if f.hasCount && !goodCount r.val then some .shift
  else if f.hasCond && 0x0C < r.val.toNat then some .cond
  else Option.none

/-- The instruction a record of the format stands for: each operand from the field R68 gives it;
a register field that names R15 is refused (WF_PC). -/
def Format.read (f : Format) (r : Record) : Except Reject Instr :=
  match f with
  | .parcel k => .ok k
  | .none k => .ok k
  | .optRiAdr k => do return k (← readOpt r) (← readAdr r.r2 r)
  | .vr k => do return k (← readVr r)
  | .adr k => do return k (← readAdr r.r1 r)
  | .v k => .ok (k r.val)
  | .vR k => do return k r.val (← regOf r.r1)
  | .vAdr k => do return k r.val (← readAdr r.r2 r)
  | .riR k => do return k (← readSrc r) (← regOf r.r2)
  | .riRFlag k => do return k r.flag1 (← readSrc r) (← regOf r.r2)
  | .r k => do return k (← regOf r.r1)
  | .ri k => do return k (← readSrc r) (← regOf r.r2)
  | .vRiR k => do return k r.val (← readSrc r) (← regOf r.r2)
  | .vRR k => do return k r.val (← regOf r.r1) (← regOf r.r2)
  | .iRR k => do return k r.arg (← regOf r.r1) (← regOf r.r2)
  | .condAdr k => do return k (← readAdr r.r1 r)
  | .adrR k => do return k (← readAdr r.r1 r) (← regOf r.r2)
  | .rAdr k => do return k (← regOf r.r1) (← readAdr r.r2 r)
  | .unknown k => .ok k
  | .unknownV k => .ok (k r.val)
  | .unknownFlag k => .ok (k r.flag1)

/-! ## The opcode table -/

/-- A row of the opcode table: a record selects it when `(SEL and mask) = match` (R75). -/
structure Row where
  /-- the row's mnemonic -/
  mnemonic : String
  /-- the row's `match` -/
  pattern : BitVec 19
  /-- the row's `mask` -/
  mask : BitVec 19
  /-- the row's format, with the instruction it reads -/
  format : Format

/-- A selector word selects the row (R75). -/
def Row.selects (row : Row) (s : BitVec 19) : Bool := s &&& row.mask == row.pattern

/-- The provisional operation numbers: each unit's instructions in the order the source lists them, from 0
(R83, D23; log entry 19). The one place that says them: the rows and the encoder take them from here. -/
def Config.opNumbering : Config.OpNumbering :=
  {
    hlt := 0, rst := 1, int := 2, sti := 3, cli := 4, rcl := 5, wfe := 6, sev := 7, rpc := 8, ldx := 9,
    stx := 10, ipg := 11, pfc := 12, flc := 13, plk := 14, brd := 15, bwr := 16, bar := 17,
    not := 0, neg := 1, and := 2, ior := 3, xor := 4, inc := 5, dec := 6, add := 7, adc := 8, sub := 9,
    sbb := 10, cmp := 11, zex := 12, sex := 13,
    mul := 0, mlh := 1, div := 2, rem := 3, msl := 4, msr := 5, mad := 6, irp1 := 7, irp2 := 8, irp := 9
  }

/-- The selector word with these unit, operation and VAL, FLAG1, FLAG2 fields and `val` 0 (R75). -/
def selOf (unit : BitVec 4) (op : BitVec 5) (flags : BitVec 3) : BitVec 19 := unit ++ op ++ flags ++ 0#7

/-- The rows of the SYS unit (R77, NOP of R76 first). -/
def tableSys : List Row := [
  ⟨"NOP", 0x7FFFF, 0x7FFFF, .parcel .nop⟩,
  ⟨"HLT", selOf 0 Config.opNumbering.hlt 0b000, 0x7FF80, .optRiAdr .hlt⟩,
  ⟨"RST", selOf 0 Config.opNumbering.rst 0b000, 0x7FD80, .vr .rst⟩,
  ⟨"INT", selOf 0 Config.opNumbering.int 0b000, 0x7FD80, .vr .int⟩,
  ⟨"STI", selOf 0 Config.opNumbering.sti 0b000, 0x7FF80, .optRiAdr .sti⟩,
  ⟨"CLI", selOf 0 Config.opNumbering.cli 0b000, 0x7FF80, .optRiAdr .cli⟩,
  ⟨"RCL", selOf 0 Config.opNumbering.rcl 0b000, 0x7FF80, .adr .rcl⟩,
  ⟨"WFE", selOf 0 Config.opNumbering.wfe 0b100, 0x7FF80, .v .wfe⟩,
  ⟨"SEV", selOf 0 Config.opNumbering.sev 0b100, 0x7FF80, .v .sev⟩,
  ⟨"RPC", selOf 0 Config.opNumbering.rpc 0b100, 0x7FF80, .vR .rpc⟩,
  ⟨"LDX", selOf 0 Config.opNumbering.ldx 0b100, 0x7FF80, .vR .ldx⟩,
  ⟨"STX", selOf 0 Config.opNumbering.stx 0b100, 0x7FF80, .vAdr .stx⟩,
  ⟨"IPG", selOf 0 Config.opNumbering.ipg 0b000, 0x7FF80, .adr .ipg⟩,
  ⟨"PFC", selOf 0 Config.opNumbering.pfc 0b000, 0x7FF80, .adr .pfc⟩,
  ⟨"FLC", selOf 0 Config.opNumbering.flc 0b000, 0x7FF80, .none .flc⟩,
  ⟨"PLK", selOf 0 Config.opNumbering.plk 0b000, 0x7FF80, .adr .plk⟩,
  ⟨"BRD", selOf 0 Config.opNumbering.brd 0b000, 0x7FF80, .none .brd⟩,
  ⟨"BWR", selOf 0 Config.opNumbering.bwr 0b000, 0x7FF80, .none .bwr⟩,
  ⟨"BAR", selOf 0 Config.opNumbering.bar 0b000, 0x7FF80, .none .bar⟩]

/-- The rows of the ALU unit (R77). -/
def tableAlu : List Row := [
  ⟨"NOT", selOf 1 Config.opNumbering.not 0b000, 0x7FF80, .riR .not⟩,
  ⟨"NEG", selOf 1 Config.opNumbering.neg 0b000, 0x7FF80, .riR .neg⟩,
  ⟨"AND", selOf 1 Config.opNumbering.and 0b000, 0x7FF80, .riR .and⟩,
  ⟨"IOR", selOf 1 Config.opNumbering.ior 0b000, 0x7FF80, .riR .ior⟩,
  ⟨"XOR", selOf 1 Config.opNumbering.xor 0b000, 0x7FF80, .riR .xor⟩,
  ⟨"INC", selOf 1 Config.opNumbering.inc 0b000, 0x7FF80, .r .inc⟩,
  ⟨"DEC", selOf 1 Config.opNumbering.dec 0b000, 0x7FF80, .r .dec⟩,
  ⟨"ADD", selOf 1 Config.opNumbering.add 0b000, 0x7FF80, .riR .add⟩,
  ⟨"ADC", selOf 1 Config.opNumbering.adc 0b000, 0x7FF80, .riR .adc⟩,
  ⟨"SUB", selOf 1 Config.opNumbering.sub 0b000, 0x7FF80, .riR .sub⟩,
  ⟨"SBB", selOf 1 Config.opNumbering.sbb 0b000, 0x7FF80, .riR .sbb⟩,
  ⟨"CMP", selOf 1 Config.opNumbering.cmp 0b000, 0x7FF80, .riR .cmp⟩,
  ⟨"ZEX", selOf 1 Config.opNumbering.zex 0b000, 0x7FF80, .riR .zex⟩,
  ⟨"SEX", selOf 1 Config.opNumbering.sex 0b000, 0x7FF80, .riR .sex⟩]

/-- The rows of the MULTI unit (R77). -/
def tableMulti : List Row := [
  ⟨"MUL", selOf 2 Config.opNumbering.mul 0b000, 0x7FF80, .riR .mul⟩,
  ⟨"MLH", selOf 2 Config.opNumbering.mlh 0b000, 0x7FF80, .riR .mlh⟩,
  ⟨"DIV", selOf 2 Config.opNumbering.div 0b000, 0x7FF80, .riR .div⟩,
  ⟨"REM", selOf 2 Config.opNumbering.rem 0b000, 0x7FF80, .riR .rem⟩,
  ⟨"MSL", selOf 2 Config.opNumbering.msl 0b100, 0x7FF80, .vRiR .msl⟩,
  ⟨"MSR", selOf 2 Config.opNumbering.msr 0b100, 0x7FF80, .vRR .msr⟩,
  ⟨"MAD", selOf 2 Config.opNumbering.mad 0b000, 0x7FF80, .iRR .mad⟩,
  ⟨"IRP1", selOf 2 Config.opNumbering.irp1 0b000, 0x7FF80, .ri .irp1⟩,
  ⟨"IRP2", selOf 2 Config.opNumbering.irp2 0b000, 0x7FF80, .r .irp2⟩,
  ⟨"IRP", selOf 2 Config.opNumbering.irp 0b000, 0x7FF80, .riR .irp⟩]

/-- The rows of the SHIFT unit (R77). -/
def tableShift : List Row := [
  ⟨"SHL", 0x18000, 0x7FF80, .vRR .shl⟩,
  ⟨"SHR", 0x18100, 0x7FF80, .vRR .shr⟩,
  ⟨"SRA", 0x18180, 0x7FF80, .vRR .sra⟩,
  ⟨"ROL", 0x18200, 0x7FF80, .vRR .rol⟩,
  ⟨"ROR", 0x18300, 0x7FF80, .vRR .ror⟩,
  ⟨"SLA", 0x18400, 0x7FF80, .vRiR .sla⟩,
  ⟨"SLR", 0x18580, 0x7FF80, .vRiR .slr⟩,
  ⟨"SAL", 0x18500, 0x7FF80, .vRR .sal⟩,
  ⟨"SAR", 0x18480, 0x7FF80, .vRR .sar⟩,
  ⟨"SLM", 0x18800, 0x7FF80, .vRiR .slm⟩,
  ⟨"SRM", 0x18900, 0x7FF80, .vRiR .srm⟩,
  ⟨"SML", 0x18C00, 0x7FF80, .vRiR .sml⟩,
  ⟨"SMR", 0x18C80, 0x7FF80, .vRiR .smr⟩]

/-- The rows of the BIT unit (R77). -/
def tableBit : List Row := [
  ⟨"CLZ", 0x20000, 0x7FF80, .riR .clz⟩,
  ⟨"HAM", 0x20100, 0x7FF80, .riR .ham⟩,
  ⟨"PAR", 0x20080, 0x7FF80, .riR .par⟩,
  ⟨"SWP", 0x20400, 0x7FE80, .riRFlag .swp⟩,
  ⟨"BEC", 0x20800, 0x7FF80, .riR .bec⟩,
  ⟨"BDC", 0x20900, 0x7FF80, .riR .bdc⟩,
  ⟨"CRC", 0x21000, 0x7FE80, .unknownFlag .crc⟩,
  ⟨"ECC", 0x21180, 0x7FF80, .unknown .ecc⟩,
  ⟨"HSH", 0x21400, 0x7FF80, .riR .hsh⟩,
  ⟨"HUN", 0x21500, 0x7FF80, .riR .hun⟩]

/-- The rows of the ATOM unit (R77). -/
def tableAtom : List Row := [
  ⟨"LDL", 0x28000, 0x7FF80, .unknown .ldl⟩,
  ⟨"STL", 0x28080, 0x7FF80, .unknown .stl⟩,
  ⟨"BTC", 0x28400, 0x7FF80, .unknown .btc⟩,
  ⟨"BTS", 0x28500, 0x7FF80, .unknown .bts⟩,
  ⟨"XADD", 0x28800, 0x7FF80, .unknown .xadd⟩,
  ⟨"XINC", 0x28900, 0x7FF80, .unknown .xinc⟩,
  ⟨"XDEC", 0x28880, 0x7FF80, .unknown .xdec⟩,
  ⟨"CAS", 0x28C00, 0x7FF80, .unknown .cas⟩]

/-- The rows of the FLOW unit (R77). -/
def tableFlow : List Row := [
  ⟨"JMP", 0x30000, 0x7FF80, .adr .jmp⟩,
  ⟨"JMR", 0x30100, 0x7FF80, .unknown .jmr⟩,
  ⟨"BZF", 0x30600, 0x7FFFF, .condAdr .bzf⟩,
  ⟨"BEQ", 0x30601, 0x7FFFF, .condAdr .beq⟩,
  ⟨"BNE", 0x30602, 0x7FFFF, .condAdr .bne⟩,
  ⟨"BLT", 0x30603, 0x7FFFF, .condAdr .blt⟩,
  ⟨"BLE", 0x30604, 0x7FFFF, .condAdr .ble⟩,
  ⟨"BGT", 0x30605, 0x7FFFF, .condAdr .bgt⟩,
  ⟨"BGE", 0x30606, 0x7FFFF, .condAdr .bge⟩,
  ⟨"BCF", 0x30607, 0x7FFFF, .condAdr .bcf⟩,
  ⟨"BNC", 0x30608, 0x7FFFF, .condAdr .bnc⟩,
  ⟨"BOF", 0x30609, 0x7FFFF, .condAdr .bof⟩,
  ⟨"BNO", 0x3060A, 0x7FFFF, .condAdr .bno⟩,
  ⟨"BSF", 0x3060B, 0x7FFFF, .condAdr .bsf⟩,
  ⟨"BNS", 0x3060C, 0x7FFFF, .condAdr .bns⟩,
  ⟨"BEG", 0x30800, 0x7FF80, .unknown .beg⟩,
  ⟨"FIN", 0x30900, 0x7FF80, .unknown .fin⟩,
  ⟨"MKF", 0x30A00, 0x7FF80, .unknownV .mkf⟩,
  ⟨"CSR", 0x30C00, 0x7FF80, .adr .csr⟩,
  ⟨"SYS", 0x30D00, 0x7FF80, .unknown .sys⟩,
  ⟨"THR", 0x31400, 0x7FF80, .unknown .thr⟩,
  ⟨"THC", 0x31600, 0x7FF80, .unknownV .thc⟩,
  ⟨"THW", 0x31500, 0x7FF80, .unknown .thw⟩,
  ⟨"THY", 0x31480, 0x7FF80, .unknown .thy⟩,
  ⟨"RET", 0x31000, 0x7FF80, .none .ret⟩,
  ⟨"SRT", 0x31100, 0x7FF80, .unknown .srt⟩,
  ⟨"THX", 0x31080, 0x7FF80, .unknown .thx⟩,
  ⟨"IRT", 0x31180, 0x7FF80, .unknown .irt⟩]

/-- The rows of the XFER unit (R77). -/
def tableXfer : List Row := [
  ⟨"CKR", 0x38000, 0x7FF80, .unknown .ckr⟩,
  ⟨"CKW", 0x38100, 0x7FF80, .unknown .ckw⟩,
  ⟨"CKX", 0x38080, 0x7FF80, .unknown .ckx⟩,
  ⟨"LDR", 0x38400, 0x7FF80, .adrR .ldr⟩,
  ⟨"LDN", 0x38500, 0x7FF80, .unknown .ldn⟩,
  ⟨"LDC", 0x38600, 0x7FF80, .unknownV .ldc⟩,
  ⟨"STR", 0x38800, 0x7FF80, .rAdr .str⟩,
  ⟨"STN", 0x38900, 0x7FF80, .unknown .stn⟩,
  ⟨"STC", 0x38A00, 0x7FF80, .unknownV .stc⟩,
  ⟨"PSH", 0x38C00, 0x7FF80, .r .psh⟩,
  ⟨"PSM", 0x38D00, 0x7FF80, .unknown .psm⟩,
  ⟨"POP", 0x38C80, 0x7FF80, .r .pop⟩,
  ⟨"POM", 0x38D80, 0x7FF80, .unknown .pom⟩,
  ⟨"IOC", 0x39200, 0x7FF80, .unknownV .ioc⟩,
  ⟨"IOP", 0x39000, 0x7FF80, .unknown .iop⟩,
  ⟨"IRD", 0x39100, 0x7FF80, .unknown .ird⟩,
  ⟨"IWR", 0x39080, 0x7FF80, .unknown .iwr⟩]

/-- The opcode table: its 119 rows, unit by unit (R77). -/
def opcodeTable : List Row :=
  tableSys ++ tableAlu ++ tableMulti ++ tableShift ++ tableBit ++ tableAtom ++ tableFlow ++ tableXfer

/-- The row a selector word selects, or nothing (R75, R78). -/
def rowOf (s : BitVec 19) : Option Row := opcodeTable.find? fun row => row.selects s

/-- Reads the instruction of a record, or rejects it by the first check of R74 that fails. A selector
that matches no row is `IllFormed(WF_SELECTOR)` (R78). Total on every record. -/
def decode (r : Record) : Except Reject Instr :=
  match rowOf r.sel with
  | Option.none => .error (.illFormed .selector)
  | some row =>
    match row.format.check r with
    | some c => .error (.illFormed c)
    | Option.none => row.format.read r

/-! ## The encoder -/

/-- A record with the selector fields given (VAL, FLAG1 and FLAG2 as one number of three bits) and
every other field 0. -/
def fieldsOf (unit : BitVec 4) (op : BitVec 5) (flags : BitVec 3) (v : Val) : Record where
  unit := unit
  op := op
  val1 := flags.getLsbD 2
  flag1 := flags.getLsbD 1
  flag2 := flags.getLsbD 0
  val := v
  r1 := 0
  r2 := 0
  ndx := false
  reg := false
  imm := false
  p1 := false
  arg := 0

/-- The register field that names an operand register. -/
def fieldOf (r : Reg) : BitVec 4 := BitVec.ofNat 4 r.val

/-- Puts a register into the `r1` field. -/
def putR1 (r : Reg) (w : Record) : Record := { w with r1 := fieldOf r }

/-- Puts a register into the `r2` field. -/
def putR2 (r : Reg) (w : Record) : Record := { w with r2 := fieldOf r }

/-- Puts the immediate `i` into the argument parcel (R70). -/
def putArg (i : Word) (w : Record) : Record := { w with imm := true, arg := i }

/-- Puts an `ri1` operand (R70). -/
def putSrc (src : RI) (w : Record) : Record :=
  match src with
  | .reg r => putR1 r w
  | .imm i => putArg i w

/-- Puts an optional `<ri1>` operand (R73). -/
def putOpt (m : Option RI) (w : Record) : Record :=
  match m with
  | Option.none => w
  | some src => putSrc src { w with p1 := true }

/-- Puts a `vr1` operand (R71). -/
def putVr (n : VR) (w : Record) : Record :=
  match n with
  | .val v => { w with val1 := true, val := v }
  | .reg r => putR1 r w

/-- Puts the variant bit FLAG1 of SWP and CRC. -/
def putFlag1 (b : Bool) (w : Record) : Record := { w with flag1 := b }

/-- Puts the offset of an `adr` operand (R72). -/
def putOff (a : Adr) (w : Record) : Record :=
  match a.off with
  | Option.none => w
  | some i => { w with ndx := true, arg := i }

/-- Puts an `adr` operand whose base register field is `r1` (R68, R72). -/
def putAdr1 (a : Adr) (w : Record) : Record :=
  match a.base with
  | Option.none => putOff a w
  | some b => putR1 b { putOff a w with reg := true }

/-- Puts an `adr` operand whose base register field is `r2` (R68, R72). -/
def putAdr2 (a : Adr) (w : Record) : Record :=
  match a.base with
  | Option.none => putOff a w
  | some b => putR2 b { putOff a w with reg := true }

/-- The record of an instruction: the selector of R77, the operands in the fields of R68, every
unused field 0. -/
def encode : Instr → Record
  | .nop => fieldsOf 0xF 0x1F 0b111 0x7F
  | .hlt m a => putOpt m (putAdr2 a (fieldsOf 0 Config.opNumbering.hlt 0b000 0))
  | .rst n => putVr n (fieldsOf 0 Config.opNumbering.rst 0b000 0)
  | .int n => putVr n (fieldsOf 0 Config.opNumbering.int 0b000 0)
  | .sti m a => putOpt m (putAdr2 a (fieldsOf 0 Config.opNumbering.sti 0b000 0))
  | .cli m a => putOpt m (putAdr2 a (fieldsOf 0 Config.opNumbering.cli 0b000 0))
  | .rcl a => putAdr1 a (fieldsOf 0 Config.opNumbering.rcl 0b000 0)
  | .wfe v => fieldsOf 0 Config.opNumbering.wfe 0b100 v
  | .sev v => fieldsOf 0 Config.opNumbering.sev 0b100 v
  | .rpc v r => putR1 r (fieldsOf 0 Config.opNumbering.rpc 0b100 v)
  | .ldx v r => putR1 r (fieldsOf 0 Config.opNumbering.ldx 0b100 v)
  | .stx v a => putAdr2 a (fieldsOf 0 Config.opNumbering.stx 0b100 v)
  | .ipg a => putAdr1 a (fieldsOf 0 Config.opNumbering.ipg 0b000 0)
  | .pfc a => putAdr1 a (fieldsOf 0 Config.opNumbering.pfc 0b000 0)
  | .flc => fieldsOf 0 Config.opNumbering.flc 0b000 0
  | .plk a => putAdr1 a (fieldsOf 0 Config.opNumbering.plk 0b000 0)
  | .brd => fieldsOf 0 Config.opNumbering.brd 0b000 0
  | .bwr => fieldsOf 0 Config.opNumbering.bwr 0b000 0
  | .bar => fieldsOf 0 Config.opNumbering.bar 0b000 0
  | .not src d => putSrc src (putR2 d (fieldsOf 1 Config.opNumbering.not 0b000 0))
  | .neg src d => putSrc src (putR2 d (fieldsOf 1 Config.opNumbering.neg 0b000 0))
  | .and src d => putSrc src (putR2 d (fieldsOf 1 Config.opNumbering.and 0b000 0))
  | .ior src d => putSrc src (putR2 d (fieldsOf 1 Config.opNumbering.ior 0b000 0))
  | .xor src d => putSrc src (putR2 d (fieldsOf 1 Config.opNumbering.xor 0b000 0))
  | .inc r => putR1 r (fieldsOf 1 Config.opNumbering.inc 0b000 0)
  | .dec r => putR1 r (fieldsOf 1 Config.opNumbering.dec 0b000 0)
  | .add src d => putSrc src (putR2 d (fieldsOf 1 Config.opNumbering.add 0b000 0))
  | .adc src d => putSrc src (putR2 d (fieldsOf 1 Config.opNumbering.adc 0b000 0))
  | .sub src d => putSrc src (putR2 d (fieldsOf 1 Config.opNumbering.sub 0b000 0))
  | .sbb src d => putSrc src (putR2 d (fieldsOf 1 Config.opNumbering.sbb 0b000 0))
  | .cmp src d => putSrc src (putR2 d (fieldsOf 1 Config.opNumbering.cmp 0b000 0))
  | .zex src d => putSrc src (putR2 d (fieldsOf 1 Config.opNumbering.zex 0b000 0))
  | .sex src d => putSrc src (putR2 d (fieldsOf 1 Config.opNumbering.sex 0b000 0))
  | .mul src d => putSrc src (putR2 d (fieldsOf 2 Config.opNumbering.mul 0b000 0))
  | .mlh src d => putSrc src (putR2 d (fieldsOf 2 Config.opNumbering.mlh 0b000 0))
  | .div src d => putSrc src (putR2 d (fieldsOf 2 Config.opNumbering.div 0b000 0))
  | .rem src d => putSrc src (putR2 d (fieldsOf 2 Config.opNumbering.rem 0b000 0))
  | .msl v src d => putSrc src (putR2 d (fieldsOf 2 Config.opNumbering.msl 0b100 v))
  | .msr v r d => putR1 r (putR2 d (fieldsOf 2 Config.opNumbering.msr 0b100 v))
  | .mad i r d => putArg i (putR1 r (putR2 d (fieldsOf 2 Config.opNumbering.mad 0b000 0)))
  | .irp1 src d => putSrc src (putR2 d (fieldsOf 2 Config.opNumbering.irp1 0b000 0))
  | .irp2 r => putR1 r (fieldsOf 2 Config.opNumbering.irp2 0b000 0)
  | .irp src d => putSrc src (putR2 d (fieldsOf 2 Config.opNumbering.irp 0b000 0))
  | .shl v r d => putR1 r (putR2 d (fieldsOf 3 0 0b000 v))
  | .shr v r d => putR1 r (putR2 d (fieldsOf 3 0 0b010 v))
  | .sra v r d => putR1 r (putR2 d (fieldsOf 3 0 0b011 v))
  | .rol v r d => putR1 r (putR2 d (fieldsOf 3 0 0b100 v))
  | .ror v r d => putR1 r (putR2 d (fieldsOf 3 0 0b110 v))
  | .sla v src d => putSrc src (putR2 d (fieldsOf 3 1 0b000 v))
  | .slr v src d => putSrc src (putR2 d (fieldsOf 3 1 0b011 v))
  | .sal v r d => putR1 r (putR2 d (fieldsOf 3 1 0b010 v))
  | .sar v r d => putR1 r (putR2 d (fieldsOf 3 1 0b001 v))
  | .slm v src d => putSrc src (putR2 d (fieldsOf 3 2 0b000 v))
  | .srm v src d => putSrc src (putR2 d (fieldsOf 3 2 0b010 v))
  | .sml v src d => putSrc src (putR2 d (fieldsOf 3 3 0b000 v))
  | .smr v src d => putSrc src (putR2 d (fieldsOf 3 3 0b001 v))
  | .clz src d => putSrc src (putR2 d (fieldsOf 4 0 0b000 0))
  | .ham src d => putSrc src (putR2 d (fieldsOf 4 0 0b010 0))
  | .par src d => putSrc src (putR2 d (fieldsOf 4 0 0b001 0))
  | .swp w src d => putSrc src (putR2 d (putFlag1 w (fieldsOf 4 1 0b000 0)))
  | .bec src d => putSrc src (putR2 d (fieldsOf 4 2 0b000 0))
  | .bdc src d => putSrc src (putR2 d (fieldsOf 4 2 0b010 0))
  | .crc w => putFlag1 w (fieldsOf 4 4 0b000 0)
  | .ecc => fieldsOf 4 4 0b011 0
  | .hsh src d => putSrc src (putR2 d (fieldsOf 4 5 0b000 0))
  | .hun src d => putSrc src (putR2 d (fieldsOf 4 5 0b010 0))
  | .ldl => fieldsOf 5 0 0b000 0
  | .stl => fieldsOf 5 0 0b001 0
  | .btc => fieldsOf 5 1 0b000 0
  | .bts => fieldsOf 5 1 0b010 0
  | .xadd => fieldsOf 5 2 0b000 0
  | .xinc => fieldsOf 5 2 0b010 0
  | .xdec => fieldsOf 5 2 0b001 0
  | .cas => fieldsOf 5 3 0b000 0
  | .jmp a => putAdr1 a (fieldsOf 6 0 0b000 0)
  | .jmr => fieldsOf 6 0 0b010 0
  | .bzf a => putAdr1 a (fieldsOf 6 1 0b100 0)
  | .beq a => putAdr1 a (fieldsOf 6 1 0b100 1)
  | .bne a => putAdr1 a (fieldsOf 6 1 0b100 2)
  | .blt a => putAdr1 a (fieldsOf 6 1 0b100 3)
  | .ble a => putAdr1 a (fieldsOf 6 1 0b100 4)
  | .bgt a => putAdr1 a (fieldsOf 6 1 0b100 5)
  | .bge a => putAdr1 a (fieldsOf 6 1 0b100 6)
  | .bcf a => putAdr1 a (fieldsOf 6 1 0b100 7)
  | .bnc a => putAdr1 a (fieldsOf 6 1 0b100 8)
  | .bof a => putAdr1 a (fieldsOf 6 1 0b100 9)
  | .bno a => putAdr1 a (fieldsOf 6 1 0b100 10)
  | .bsf a => putAdr1 a (fieldsOf 6 1 0b100 11)
  | .bns a => putAdr1 a (fieldsOf 6 1 0b100 12)
  | .beg => fieldsOf 6 2 0b000 0
  | .fin => fieldsOf 6 2 0b010 0
  | .mkf v => fieldsOf 6 2 0b100 v
  | .csr a => putAdr1 a (fieldsOf 6 3 0b000 0)
  | .sys => fieldsOf 6 3 0b010 0
  | .thr => fieldsOf 6 5 0b000 0
  | .thc v => fieldsOf 6 5 0b100 v
  | .thw => fieldsOf 6 5 0b010 0
  | .thy => fieldsOf 6 5 0b001 0
  | .ret => fieldsOf 6 4 0b000 0
  | .srt => fieldsOf 6 4 0b010 0
  | .thx => fieldsOf 6 4 0b001 0
  | .irt => fieldsOf 6 4 0b011 0
  | .ckr => fieldsOf 7 0 0b000 0
  | .ckw => fieldsOf 7 0 0b010 0
  | .ckx => fieldsOf 7 0 0b001 0
  | .ldr a d => putAdr1 a (putR2 d (fieldsOf 7 1 0b000 0))
  | .ldn => fieldsOf 7 1 0b010 0
  | .ldc v => fieldsOf 7 1 0b100 v
  | .str r a => putR1 r (putAdr2 a (fieldsOf 7 2 0b000 0))
  | .stn => fieldsOf 7 2 0b010 0
  | .stc v => fieldsOf 7 2 0b100 v
  | .psh r => putR1 r (fieldsOf 7 3 0b000 0)
  | .psm => fieldsOf 7 3 0b010 0
  | .pop r => putR1 r (fieldsOf 7 3 0b001 0)
  | .pom => fieldsOf 7 3 0b011 0
  | .ioc v => fieldsOf 7 4 0b100 v
  | .iop => fieldsOf 7 4 0b000 0
  | .ird => fieldsOf 7 4 0b010 0
  | .iwr => fieldsOf 7 4 0b001 0

/-! ## The bits of a record

The spec gives a record no bits beyond the selector word (R79: `ParcelLayout` is OPEN). The model
numbers them for the opcode table's use only: bits 18..0 are `SEL`, and the fields that are no part
of it follow (log entry 3, DESIGN CHOICE). -/

/-- The selector word of MAD, whose record always has `IMM` set (R70, WF_IMM of R74). -/
def madSel : BitVec 19 := selOf 2 Config.opNumbering.mad 0b000

/-- The record whose bits are `w`: `SEL` in bits 18..0, r1 in 22..19, r2 in 26..23, IMM 27, NDX 28,
REG 29, P1 30, and the argument parcel in 63..32. MAD's IMM is implied, since no other value of it
is a MAD (log entry 3). -/
def recordOfBits (w : BitVec 64) : Record where
  unit := w.extractLsb' 15 4
  op := w.extractLsb' 10 5
  val1 := w.getLsbD 9
  flag1 := w.getLsbD 8
  flag2 := w.getLsbD 7
  val := w.extractLsb' 0 7
  r1 := w.extractLsb' 19 4
  r2 := w.extractLsb' 23 4
  imm := w.getLsbD 27 || w.extractLsb' 7 12 == madSel.extractLsb' 7 12
  ndx := w.getLsbD 28
  reg := w.getLsbD 29
  p1 := w.getLsbD 30
  arg := w.extractLsb' 32 32

/-- The bits of a record, in the numbering of `recordOfBits`. -/
def bitsOfRecord (r : Record) : BitVec 64 :=
  (r.arg ++ 0#1 ++ BitVec.ofBool r.p1 ++ BitVec.ofBool r.reg ++ BitVec.ofBool r.ndx
    ++ BitVec.ofBool r.imm ++ r.r2 ++ r.r1 ++ r.sel : BitVec 64)

/-- The bits of an instruction. -/
def encodeBits (i : Instr) : BitVec 64 := bitsOfRecord (encode i)

/-- Decodes any 64 bits. -/
def decodeBits (w : BitVec 64) : Except Reject Instr := decode (recordOfBits w)

/-- The bits of a table row's word: the low `nbits` bits of `w`, every higher bit 0. -/
def tableBits (nbits w : Nat) : BitVec 64 := BitVec.ofNat 64 (w % 2 ^ nbits)

/-- The instruction the decoder reads from the bits `w` of a table row of `nbits` bits. -/
def decodeTableWord (nbits w : Nat) : Option Instr := (decodeBits (tableBits nbits w)).toOption

end Sys2Proof
end

