-- ==== Sys2Proof/Machine/State.lean ====
section
/-! DEFINITION. The state of V0 as plain data (10_state.md), the reasons a step can stop (60_exceptions.md)
and the state after reset (R36, R340). -/

namespace Sys2Proof.Machine

/-- The mode (R29, R320). The spec's machine runs in system mode for the whole run. -/
inductive Mode where
  | system | user
deriving DecidableEq, Repr

/-- The four processor flags (R21). -/
structure Flags where
  /-- ZF, zero -/
  zf : Bool
  /-- CF, carry or borrow -/
  cf : Bool
  /-- OF, overflow -/
  ovf : Bool
  /-- SF, sign -/
  sf : Bool
deriving DecidableEq, Repr

/-- The outcomes of a run that an instruction sets and after which there is no step (R300, R345). -/
inductive Ending where
  /-- WFE waits for an event that never comes (R107, R304) -/
  | stuck
  /-- RST was executed: `Reset(reboot)` (R102, R300) -/
  | reset (reboot : Bool)
deriving DecidableEq, Repr

/-- Data memory: (address, byte) pairs, addresses strictly rising. An address that is not listed holds
no value (R36, R44). -/
abbrev Memory := List Host.Cell

/-- The program text: the instruction records by address (R35, R62), addresses strictly rising. -/
abbrev Text := List (Word × Record)

/-- A run of addresses that hold data memory, a part of `MemMap` (R41). -/
structure Region where
  /-- the first address -/
  base : Nat
  /-- how many bytes -/
  size : Nat
deriving DecidableEq, Repr

/-- The faults of R305, and the ways a run has ended (R300), after which there is no step. -/
inductive Fault where
  /-- `pc` is odd; raised by the step before the fetch (R47). Safe: the machine stops. -/
  | misalignedFetch (pc : Word)
  /-- The address of a 32-bit access is no multiple of 4; raised by MemRead and MemWrite, that is by
  LDR, STR, PSH, POP, STX and the mask save of HLT, STI and CLI (R46). Safe: the machine stops. -/
  | misalignedAccess (addr : Word)
  /-- A byte of the access is outside `MemMap`; raised by the same (R41). Safe: the machine stops. -/
  | accessFault (addr : Word)
  /-- A byte of the word read holds no value; raised by MemRead: LDR, POP (R44). Safe: the machine
  stops. -/
  | unwrittenRead (addr : Word)
  /-- The divisor is 0; raised by DIV and REM (R142, R143). Safe: the machine stops. -/
  | divideByZero
  /-- The dividend is -2^31 and the divisor -1; raised by DIV and REM (R142, R143). Safe: the machine
  stops. -/
  | divideOverflow
  /-- No step: the machine is halted and nothing is deliverable, the proper end of a run (R303).
  Raised by the step (log entry 10). Safe: no step is taken. -/
  | final
  /-- No step: the run has ended in `stuck` or `Reset` (R304, R102, step 1 of R345). Raised by the
  step (log entry 10). Safe: no step is taken. -/
  | ended (e : Ending)
deriving DecidableEq, Repr

/-- The refusals of R307, and the host's own. Each is safe: the model says nothing of what the
hardware does there. -/
inductive Refusal where
  /-- The arm of exec for an instruction without a meaning yet; raised by exec. Safe: the model stops. -/
  | notModelled (mnemonic : String)
  /-- `Text` holds no instruction at `pc`; raised by the step (R345). Safe: the model stops. -/
  | noInstruction
  /-- A check of R74 fails; raised by the step, and by a meaning whose operands are ill formed. Safe: the
  model stops. -/
  | illFormed (check : WfCheck)
  /-- A register field the format uses names R15; raised by the step (R17). Safe: the model stops. -/
  | pcOperand
  /-- A data access touches the text region; raised by MemRead and MemWrite (R42). Safe: the model stops. -/
  | textAccess
  /-- An enabled interrupt is pending; raised by the step (R312, R314). Safe: the model stops. -/
  | trapEntry
  /-- The interrupt number is 32 or more; raised by INT (R103). Safe: the model stops. -/
  | irqNumber (n : Word)
  /-- LDX, always (R110). Safe: the model stops. -/
  | systemRegister (v : Val)
  /-- IPG and PLK, always (R112, R115). Safe: the model stops. -/
  | translation
  /-- IRP, always (R149). Safe: the model stops. -/
  | reciprocal
  /-- An instruction the source names and does not define, always (R307). Safe: the model stops. -/
  | notDefined (mnemonic : String)
deriving DecidableEq, Repr

/-- The state of V0. -/
structure State where
  /-- R1 to R14 (R13); R0 is no storage (R14) and R15 is `pc` (R17) -/
  regs : Vector Word 14
  /-- the program counter, the address of the current instruction's parcel (R18) -/
  pc : Word
  /-- ZF, CF, OF, SF (R21) -/
  flags : Flags
  /-- the interrupt mask: bit n set means interrupt n is enabled (R24) -/
  imask : Word
  /-- the pending interrupts (R25) -/
  ipend : Word
  /-- set by HLT (R26) -/
  halted : Bool
  /-- the mode (R29; log entry 17) -/
  mode : Mode
  /-- the cache-line reservation: none, or a cache-line number (R32) -/
  resv : Option Nat
  /-- data memory (R31) -/
  mem : Memory
  /-- the program, fixed for the run (R35, R62) -/
  text : Text
  /-- `MemMap`, fixed for the run (R35, R41) -/
  memMap : List Region
  /-- the outcome an instruction has set, if any (R300; log entry 10) -/
  outcome : Option Ending
  /-- the MODEL's own counter: how many undetermined words the run has drawn (log entry 5) -/
  draws : Nat
deriving DecidableEq, Repr

/-- The state after reset (R36, R340). The values of R1 to R14 and the flags, `pc` and `MemMap` are the
model's choice (log entries 1, 2 and 4); no program is loaded (log entry 3). -/
def State.reset : State where
  regs := Vector.replicate 14 0
  pc := Config.resetPc
  flags := ⟨false, false, false, false⟩
  imask := 0
  ipend := 0
  halted := false
  mode := .system
  resv := none
  mem := []
  text := []
  memMap := [⟨0, Config.addressSpace⟩]
  outcome := none
  draws := 0

/-- What a step answers. -/
abbrev Result := Host.Outcome State Fault Refusal

/-- Why an instruction stops before it has written anything (R301, R302). -/
inductive Stop where
  /-- `raise` -/
  | fault (f : Fault)
  /-- `refuse` -/
  | refuse (r : Refusal)
deriving DecidableEq, Repr

end Sys2Proof.Machine
end

