-- ==== Sys2Proof/Machine/Ops.lean ====
section
/-! DEFINITION. The named operations over registers, the program counter and memory, and the stops:
`x[i]` (R6, R14), `MemRead` and `MemWrite` (R44, R45), `raise` and `refuse` (R301, R302), and the
undetermined word (R6). -/

namespace Sys2Proof.Machine

/-! ## Stops

`raise` and `refuse` are all the spec says of taking an exception: trap entry is not in the source
(R314), so nothing is saved and no handler is entered; the instruction writes nothing and the run
ends. The returns SRT and IRT are refused (R315). -/

/-- `raise F`: the instruction writes nothing and the run ends in the fault (R301). The state at the
fault is the state before the instruction, `s`, with `pc` at the faulting instruction. -/
def raise (f : Fault) (_s : State) : Result := .fault f

/-- `refuse(reason)`: nothing is written and the run ends refused (R302). -/
def refuse (r : Refusal) (_s : State) : Result := .refused r

/-- The stop as a step's answer. -/
def stopWith (e : Stop) (s : State) : Result :=
  match e with
  | .fault f => raise f s
  | .refuse r => refuse r s

/-! ## Registers -/

/-- `x[r]`: register `r`; R0 reads zero (R14). -/
def State.reg (s : State) (r : Reg) : Word :=
  if r.val = 0 then 0 else s.regs[r.val - 1]'(by omega)

/-- `x[r] <- v`: a write of R0 is discarded (R14). -/
def State.setReg (s : State) (r : Reg) (v : Word) : State :=
  if r.val = 0 then s else { s with regs := s.regs.set (r.val - 1) v (by omega) }

/-- `pc <- t` (R6). -/
def State.setPc (s : State) (t : Word) : State := { s with pc := t }

/-- `pc <- next`, for an instruction with or without an argument parcel (R19, R66). -/
def State.advance (s : State) (hasArg : Bool) : State := s.setPc (nextAddr s.pc hasArg)

/-! ## Memory -/

/-- The memory's canonical form: addresses strictly rising and within the address space. Every listed
byte is a value, and an unlisted address holds none. -/
abbrev Memory.wf (m : Memory) : Prop :=
  m.Pairwise (fun c d => c.1 < d.1) ∧ ∀ c ∈ m, c.1 < Config.addressSpace

/-- One byte of memory; `none` where the address holds no value (R36). -/
def memByte (m : Memory) (a : Nat) : Option Byte :=
  match m with
  | [] => none
  | c :: m => if c.1 = a then some c.2 else memByte m a

/-- Writes one byte, keeping the canonical form. -/
def putByte (m : Memory) (a : Nat) (b : Byte) : Memory :=
  match m with
  | [] => [(a, b)]
  | c :: m =>
    if a < c.1 then (a, b) :: c :: m
    else if a = c.1 then (a, b) :: m
    else c :: putByte m a b

/-- Byte `k` of a word, byte 0 at the lowest address (little-endian, R43). -/
def byteOfWord (v : Word) (k : Nat) : Byte := v.extractLsb' (8 * k) 8

/-- The word whose bytes are, from the lowest address, `b0` to `b3` (R43, R44). -/
def wordOfBytes (b0 b1 b2 b3 : Byte) : Word := b3 ++ b2 ++ b1 ++ b0

/-- Writes the four bytes of a word from address `a` on (R45). -/
def putWord (m : Memory) (a : Nat) (v : Word) : Memory :=
  putByte (putByte (putByte (putByte m a (byteOfWord v 0)) (a + 1) (byteOfWord v 1))
    (a + 2) (byteOfWord v 2)) (a + 3) (byteOfWord v 3)

/-- How many bytes of the text region the instruction at `a` occupies: the parcel and, with an argument
parcel, everything up to the argument's end, the hole included (R42, R64). -/
def textSize (a : Word) (r : Record) : Nat := (nextAddr a r.hasArg - a).toNat

/-- Address `x` is in the bytes of the instruction at `a` (addresses modulo 2^32, R20). -/
def occupies (a : Word) (r : Record) (x : Word) : Bool := (x - a).toNat < textSize a r

/-- Address `x` is in the text region of the program (R42). -/
def inText (t : Text) (x : Word) : Bool := t.any fun e => occupies e.1 e.2 x

/-- Address `x` holds data memory: it is in `MemMap` (R41). -/
def inMemMap (m : List Region) (x : Word) : Bool :=
  m.any fun g => g.base ≤ x.toNat && x.toNat < g.base + g.size

/-- The addresses of the four bytes of a word. -/
def wordAddrs (a : Word) : List Word := [a, a + 1, a + 2, a + 3]

/-- The checks that MemRead and MemWrite share, in their order: alignment, text region, `MemMap`
(R44, R45). -/
def memCheck (s : State) (a : Word) : Option Stop :=
  if a.toNat % 4 ≠ 0 then some (.fault (.misalignedAccess a))
  else if (wordAddrs a).any (inText s.text) then some (.refuse .textAccess)
  else if !(wordAddrs a).all (inMemMap s.memMap) then some (.fault (.accessFault a))
  else none

/-- `MemRead(a, 4)` (R44). -/
def memRead (s : State) (a : Word) : Except Stop Word :=
  match memCheck s a with
  | some e => .error e
  | none =>
    match memByte s.mem a.toNat, memByte s.mem (a.toNat + 1), memByte s.mem (a.toNat + 2),
        memByte s.mem (a.toNat + 3) with
    | some b0, some b1, some b2, some b3 => .ok (wordOfBytes b0 b1 b2 b3)
    | _, _, _, _ => .error (.fault (.unwrittenRead a))

/-- `MemWrite(a, 4, v)`: all four bytes at once, or nothing (R45). -/
def memWrite (s : State) (a : Word) (v : Word) : Except Stop State :=
  match memCheck s a with
  | some e => .error e
  | none => .ok { s with mem := putWord s.mem a.toNat v }

/-! ## Undetermined words -/

/-- `draw(32)`: the next undetermined word of the run (R6). -/
def State.drawn (s : State) : Word := Config.draw s.draws

/-- One more undetermined word has been drawn. -/
def State.nextDraw (s : State) : State := { s with draws := s.draws + 1 }

end Sys2Proof.Machine
end

