-- ==== Sys2Proof/Machine/Operands.lean ====
section
/-! DEFINITION. The operand forms (R69 to R73): their values, whether they take the argument parcel,
and the shapes that instructions share. -/

namespace Sys2Proof.Machine

/-- A `v` operand: the `val` field, zero-extended (R69). -/
def valOf (v : Val) : Word := v.zeroExtend 32

/-- `src1`, the value of an `ri1` operand (R70). -/
def srcOf (s : State) (src : RI) : Word :=
  match src with
  | .reg r => s.reg r
  | .imm i => i

/-- The value of a `vr1` operand (R71). -/
def vrOf (s : State) (n : VR) : Word :=
  match n with
  | .val v => valOf v
  | .reg r => s.reg r

/-- `EA`, the effective address of an `adr` operand: base or zero plus offset or zero (R72). -/
def eaOf (s : State) (a : Adr) : Word :=
  (match a.base with
    | some b => s.reg b
    | none => 0) +
  (match a.off with
    | some i => i
    | none => 0)

/-- An `ri1` operand takes the argument parcel exactly in its immediate form (R63). -/
def srcArg : RI → Bool
  | .reg _ => false
  | .imm _ => true

/-- An optional `<ri1>` operand takes the argument parcel when it is present and immediate. -/
def optArg : Option RI → Bool
  | some src => srcArg src
  | none => false

/-- An `adr` operand takes the argument parcel when it has an offset (R63). -/
def adrArg (a : Adr) : Bool := a.off.isSome

/-- An optional `<adr>` is present exactly when `NDX or REG` (R73). -/
def adrPresent (a : Adr) : Bool := a.base.isSome || a.off.isSome

/-- Writes the result `f (x[d]) src1` to `d` and goes on (the shape `ri1, r2`). -/
def toDest (src : RI) (d : Reg) (v : Word) (s : State) : Result :=
  .next ((s.setReg d v).advance (srcArg src))

/-- Writes a result to `d` and goes on, in an instruction with no argument parcel. -/
def toReg (d : Reg) (v : Word) (s : State) : Result := .next ((s.setReg d v).advance false)

/-- Runs a meaning whose `v` is a shift count, which R173 admits up to `SHIFT_MAX`. -/
def withCount (v : Val) (s : State) (k : Nat → Result) : Result :=
  if goodCount v then k v.toNat else refuse (.illFormed .shift) s

/-- Goes on with no state change but the program counter. -/
def goOn (hasArg : Bool) (s : State) : Result := .next (s.advance hasArg)

end Sys2Proof.Machine
end

