-- ==== Sys2Proof/Machine/Flags.lean ====
section
/-! DEFINITION. The flag computations of CMP, ADC and SBB (R128, R130, R131) and the branch conditions
(R255). -/

namespace Sys2Proof.Machine

/-- The carry of an addition: bit 32 of the 33-bit sum (R128). -/
def addCarry (a b : Word) : Bool := 2 ^ 32 ≤ a.toNat + b.toNat

/-- The borrow of `a - b`: `a` below `b` as unsigned numbers (R130, R131). -/
def subBorrow (a b : Word) : Bool := a.toNat < b.toNat

/-- Bit 31 of a word (R131). -/
def signBit (v : Word) : Bool := v.getLsbD 31

/-- The flags CMP computes for `a - b` (R131). -/
def cmpFlags (a b : Word) : Flags where
  zf := a - b == 0
  cf := subBorrow a b
  ovf := signBit a != signBit b && signBit (a - b) != signBit a
  sf := signBit (a - b)

/-- Writes CF and leaves the other flags (R22). -/
def State.setCf (s : State) (b : Bool) : State := { s with flags := { s.flags with cf := b } }

/-- Writes all four flags (R22, R131). -/
def State.setFlags (s : State) (f : Flags) : State := { s with flags := f }

/-- `a = b` after `CMP b, a`: the condition of BZF and BEQ (R255). -/
def condEq (f : Flags) : Bool := f.zf

/-- `a <s b`: BLT (R255). -/
def condLt (f : Flags) : Bool := f.sf != f.ovf

/-- `a <=s b`: BLE (R255). -/
def condLe (f : Flags) : Bool := f.zf || f.sf != f.ovf

/-- `a >s b`: BGT (R255). -/
def condGt (f : Flags) : Bool := !f.zf && f.sf == f.ovf

/-- `a >=s b`: BGE (R255). -/
def condGe (f : Flags) : Bool := f.sf == f.ovf

end Sys2Proof.Machine
end

