-- ==== Sys2Proof/Machine/Alu.lean ====
section
/-! DEFINITION. The ALU unit (41_alu.md): 32-bit results, every operand read before the result is
written, flags written by CMP, ADC and SBB only (R134). -/

namespace Sys2Proof.Machine

/-- NOT (R120). -/
def execNot (src : RI) (d : Reg) (s : State) : Result := toDest src d (~~~(srcOf s src)) s

/-- NEG (R121). -/
def execNeg (src : RI) (d : Reg) (s : State) : Result := toDest src d (0 - srcOf s src) s

/-- AND (R122). -/
def execAnd (src : RI) (d : Reg) (s : State) : Result := toDest src d (s.reg d &&& srcOf s src) s

/-- IOR (R123). -/
def execIor (src : RI) (d : Reg) (s : State) : Result := toDest src d (s.reg d ||| srcOf s src) s

/-- XOR (R124). -/
def execXor (src : RI) (d : Reg) (s : State) : Result := toDest src d (s.reg d ^^^ srcOf s src) s

/-- INC (R125). -/
def execInc (d : Reg) (s : State) : Result := toReg d (s.reg d + 1) s

/-- DEC (R126). -/
def execDec (d : Reg) (s : State) : Result := toReg d (s.reg d - 1) s

/-- ADD (R127). -/
def execAdd (src : RI) (d : Reg) (s : State) : Result := toDest src d (s.reg d + srcOf s src) s

/-- ADC: ADD that stores the carry; the old carry is no input (R128). -/
def execAdc (src : RI) (d : Reg) (s : State) : Result :=
  toDest src d (s.reg d + srcOf s src) (s.setCf (addCarry (s.reg d) (srcOf s src)))

/-- SUB: operand 2 minus operand 1 (R129). -/
def execSub (src : RI) (d : Reg) (s : State) : Result := toDest src d (s.reg d - srcOf s src) s

/-- SBB: SUB that stores the borrow; the old carry is no input (R130). -/
def execSbb (src : RI) (d : Reg) (s : State) : Result :=
  toDest src d (s.reg d - srcOf s src) (s.setCf (subBorrow (s.reg d) (srcOf s src)))

/-- CMP: the flags of `r - src`; no register is written (R131). -/
def execCmp (src : RI) (r : Reg) (s : State) : Result :=
  goOn (srcArg src) (s.setFlags (cmpFlags (s.reg r) (srcOf s src)))

/-- The low `w` bits of a word, the rest zero (R132). -/
def zeroExtendFrom (w : Nat) (v : Word) : Word := (v.truncate w).zeroExtend 32

/-- The low `w` bits of a word, bit `w - 1` copied above them (R133). -/
def signExtendFrom (w : Nat) (v : Word) : Word := (v.truncate w).signExtend 32

/-- ZEX, from the OPEN width `EXT_SRC_BITS` (R132). -/
def execZex (src : RI) (d : Reg) (s : State) : Result :=
  toDest src d (zeroExtendFrom Config.extSrcBits (srcOf s src)) s

/-- SEX, from the OPEN width `EXT_SRC_BITS` (R133). -/
def execSex (src : RI) (d : Reg) (s : State) : Result :=
  toDest src d (signExtendFrom Config.extSrcBits (srcOf s src)) s

end Sys2Proof.Machine
end

