-- ==== Sys2Proof/Machine/Atom.lean ====
section
/-! DEFINITION. The ATOM unit (45_atom.md): the source gives no operand list, so every one of its
instructions is refused (R208). -/

namespace Sys2Proof.Machine

/-- LDL: refused always (R200, R208). -/
def execLdl (s : State) : Result := refuse (.notDefined "LDL") s

/-- STL: refused always (R201, R208). -/
def execStl (s : State) : Result := refuse (.notDefined "STL") s

/-- BTC: refused always (R202, R208). -/
def execBtc (s : State) : Result := refuse (.notDefined "BTC") s

/-- BTS: refused always (R203, R208). -/
def execBts (s : State) : Result := refuse (.notDefined "BTS") s

/-- XADD: refused always (R204, R208). -/
def execXadd (s : State) : Result := refuse (.notDefined "XADD") s

/-- XINC: refused always (R205, R208). -/
def execXinc (s : State) : Result := refuse (.notDefined "XINC") s

/-- XDEC: refused always (R206, R208). -/
def execXdec (s : State) : Result := refuse (.notDefined "XDEC") s

/-- CAS: refused always (R207, R208). -/
def execCas (s : State) : Result := refuse (.notDefined "CAS") s

end Sys2Proof.Machine
end

