-- ==== Sys2Proof/Machine/Bit.lean ====
section
/-! DEFINITION. The BIT unit (44_bit.md): CLZ, HAM and PAR are decided (R190 (c)), five instructions
use an uninterpreted function, CRC and ECC are refused. No flag is written. -/

namespace Sys2Proof.Machine

/-- The zero bits above the highest set one among the low `k` bits of `v` (the loop of R180, from bit
`k - 1` down). -/
def clzBelow (v : Word) : Nat → Nat
  | 0 => 0
  | k + 1 => if v.getLsbD k then 0 else clzBelow v k + 1

/-- How many of the low `k` bits of `v` are set (R181). -/
def onesBelow (v : Word) : Nat → Nat
  | 0 => 0
  | k + 1 => onesBelow v k + (if v.getLsbD k then 1 else 0)

/-- The exclusive or of the low `k` bits of `v` (R182). -/
def xorBelow (v : Word) : Nat → Bool
  | 0 => false
  | k + 1 => xorBelow v k ^^ v.getLsbD k

/-- CLZ: the number of leading zero bits, 0 to 32 (R180). -/
def execClz (src : RI) (d : Reg) (s : State) : Result :=
  toDest src d (BitVec.ofNat 32 (clzBelow (srcOf s src) 32)) s

/-- HAM: the number of 1-bits, 0 to 32 (R181). -/
def execHam (src : RI) (d : Reg) (s : State) : Result :=
  toDest src d (BitVec.ofNat 32 (onesBelow (srcOf s src) 32)) s

/-- PAR: 1 when the number of 1-bits is odd (R182). -/
def execPar (src : RI) (d : Reg) (s : State) : Result :=
  toDest src d (if xorBelow (srcOf s src) 32 then 1 else 0) s

/-- SWP: the uninterpreted `cfg.swp8` or, with FLAG1 set, `cfg.swp16` (R183). -/
def execSwp (wide : Bool) (src : RI) (d : Reg) (s : State) : Result :=
  toDest src d (if wide then Config.swp16 (srcOf s src) else Config.swp8 (srcOf s src)) s

/-- BEC: the uninterpreted `cfg.bcd_encode` (R184). -/
def execBec (src : RI) (d : Reg) (s : State) : Result :=
  toDest src d (Config.bcdEncode (srcOf s src)) s

/-- BDC: the uninterpreted `cfg.bcd_decode` (R185). -/
def execBdc (src : RI) (d : Reg) (s : State) : Result :=
  toDest src d (Config.bcdDecode (srcOf s src)) s

/-- CRC: refused always (R186). -/
def execCrc (_wide : Bool) (s : State) : Result := refuse (.notDefined "CRC") s

/-- ECC: refused always (R187). -/
def execEcc (s : State) : Result := refuse (.notDefined "ECC") s

/-- HSH: the uninterpreted `cfg.tmhash32` (R188). -/
def execHsh (src : RI) (d : Reg) (s : State) : Result :=
  toDest src d (Config.tmhash32 (srcOf s src)) s

/-- HUN: the inverse of HSH's function (R189). -/
def execHun (src : RI) (d : Reg) (s : State) : Result :=
  toDest src d (Config.tmunhash32 (srcOf s src)) s

end Sys2Proof.Machine
end

