-- ==== Sys2Proof/Machine/Flow.lean ====
section
/-! DEFINITION. The FLOW unit (46_flow.md): jumps, the thirteen branches, CSR and RET are decided, the
target is the absolute `EA` and is not checked by the transfer, there is no delay slot and no flag is
written (R256); the others are refused. -/

namespace Sys2Proof.Machine

/-- A branch: to `EA` when the condition holds, else on (R257). -/
def branch (taken : Bool) (adr : Adr) (s : State) : Result :=
  if taken then .next (s.setPc (eaOf s adr)) else goOn (adrArg adr) s

/-- JMP (R220). -/
def execJmp (adr : Adr) (s : State) : Result := .next (s.setPc (eaOf s adr))

/-- JMR: refused always (R221). -/
def execJmr (s : State) : Result := refuse (.notDefined "JMR") s

/-- BZF (R255, R222). -/
def execBzf (adr : Adr) (s : State) : Result := branch (condEq s.flags) adr s

/-- BEQ (R255, R223). -/
def execBeq (adr : Adr) (s : State) : Result := branch (condEq s.flags) adr s

/-- BNE (R255, R224). -/
def execBne (adr : Adr) (s : State) : Result := branch (!condEq s.flags) adr s

/-- BLT (R255, R225). -/
def execBlt (adr : Adr) (s : State) : Result := branch (condLt s.flags) adr s

/-- BLE (R255, R226). -/
def execBle (adr : Adr) (s : State) : Result := branch (condLe s.flags) adr s

/-- BGT (R255, R227). -/
def execBgt (adr : Adr) (s : State) : Result := branch (condGt s.flags) adr s

/-- BGE (R255, R228). -/
def execBge (adr : Adr) (s : State) : Result := branch (condGe s.flags) adr s

/-- BCF (R255, R229). -/
def execBcf (adr : Adr) (s : State) : Result := branch (s.flags.cf) adr s

/-- BNC (R255, R230). -/
def execBnc (adr : Adr) (s : State) : Result := branch (!s.flags.cf) adr s

/-- BOF (R255, R231). -/
def execBof (adr : Adr) (s : State) : Result := branch (s.flags.ovf) adr s

/-- BNO (R255, R232). -/
def execBno (adr : Adr) (s : State) : Result := branch (!s.flags.ovf) adr s

/-- BSF (R255, R233). -/
def execBsf (adr : Adr) (s : State) : Result := branch (s.flags.sf) adr s

/-- BNS (R255, R234). -/
def execBns (adr : Adr) (s : State) : Result := branch (!s.flags.sf) adr s

/-- BEG: refused always (R235). -/
def execBeg (s : State) : Result := refuse (.notDefined "BEG") s

/-- FIN: refused always (R236). -/
def execFin (s : State) : Result := refuse (.notDefined "FIN") s

/-- MKF: refused always (R237). -/
def execMkf (_v : Val) (s : State) : Result := refuse (.notDefined "MKF") s

/-- CSR: the return address goes to LR; the target is computed from the old registers (R241). -/
def execCsr (adr : Adr) (s : State) : Result :=
  .next ((s.setReg lrReg (nextAddr s.pc (adrArg adr))).setPc (eaOf s adr))

/-- SYS: refused always (R242). -/
def execSys (s : State) : Result := refuse (.notDefined "SYS") s

/-- THR: refused always (R243). -/
def execThr (s : State) : Result := refuse (.notDefined "THR") s

/-- THC: refused always (R244). -/
def execThc (_v : Val) (s : State) : Result := refuse (.notDefined "THC") s

/-- THW: refused always (R245). -/
def execThw (s : State) : Result := refuse (.notDefined "THW") s

/-- THY: refused always (R246). -/
def execThy (s : State) : Result := refuse (.notDefined "THY") s

/-- RET (R249). -/
def execRet (s : State) : Result := .next (s.setPc (s.reg lrReg))

/-- SRT: refused always (R250). -/
def execSrt (s : State) : Result := refuse (.notDefined "SRT") s

/-- THX: refused always (R251). -/
def execThx (s : State) : Result := refuse (.notDefined "THX") s

/-- IRT: refused always (R252). -/
def execIrt (s : State) : Result := refuse (.notDefined "IRT") s

end Sys2Proof.Machine
end

