-- ==== Sys2Proof/Machine/Multi.lean ====
section
/-! DEFINITION. The MULTI unit (42_multi.md): no flag is written, intermediates are truncated to 32
bits, MLH, DIV and REM follow `MULDIV_SIGNED` (R151). -/

namespace Sys2Proof.Machine

/-- A word as the integer MLH, DIV and REM compute with: two's complement when `signed`, else the
natural number (R151 (e)). -/
def intOf (signed : Bool) (v : Word) : Int := if signed then v.toInt else v.toNat

/-- Bits 63:32 of the exact 64-bit product (R141). -/
def mulHigh (signed : Bool) (a b : Word) : Word :=
  (BitVec.ofInt 64 (intOf signed a * intOf signed b)).extractLsb' 32 32

/-- The cases in which DIV and REM fault: a zero divisor, and for signed operands the quotient that
does not fit (R142, R143). -/
def divideFault (signed : Bool) (n d : Word) : Option Fault :=
  if intOf signed d = 0 then some .divideByZero
  else if signed ∧ n.toInt = -2 ^ 31 ∧ d.toInt = -1 then some .divideOverflow
  else none

/-- The quotient `n / d`, rounded toward zero (R142). -/
def quotient (signed : Bool) (n d : Word) : Word :=
  BitVec.ofInt 32 ((intOf signed n).tdiv (intOf signed d))

/-- The remainder `n - d * trunc(n / d)` (R143). -/
def remainder (signed : Bool) (n d : Word) : Word :=
  BitVec.ofInt 32 (intOf signed n - intOf signed d * (intOf signed n).tdiv (intOf signed d))

/-- MUL: the low word of the product (R140). -/
def execMul (src : RI) (d : Reg) (s : State) : Result := toDest src d (s.reg d * srcOf s src) s

/-- MLH: the high word of the product (R141). -/
def execMlh (src : RI) (d : Reg) (s : State) : Result :=
  toDest src d (mulHigh Config.muldivSigned (s.reg d) (srcOf s src)) s

/-- DIV (R142). -/
def execDiv (src : RI) (d : Reg) (s : State) : Result :=
  match divideFault Config.muldivSigned (s.reg d) (srcOf s src) with
  | some f => raise f s
  | none => toDest src d (quotient Config.muldivSigned (s.reg d) (srcOf s src)) s

/-- REM (R143). -/
def execRem (src : RI) (d : Reg) (s : State) : Result :=
  match divideFault Config.muldivSigned (s.reg d) (srcOf s src) with
  | some f => raise f s
  | none => toDest src d (remainder Config.muldivSigned (s.reg d) (srcOf s src)) s

/-- MSL: multiply, then shift left (R144). -/
def execMsl (v : Val) (src : RI) (d : Reg) (s : State) : Result :=
  withCount v s fun n => toDest src d ((s.reg d * srcOf s src) <<< n) s

/-- MSR: multiply, then shift right logically (R145). -/
def execMsr (v : Val) (r : Reg) (d : Reg) (s : State) : Result :=
  withCount v s fun n => toReg d ((s.reg r * s.reg d) >>> n) s

/-- MAD: multiply and add the immediate, so there is always an argument parcel (R146). -/
def execMad (i : Word) (r : Reg) (d : Reg) (s : State) : Result :=
  toDest (.imm i) d (s.reg r * s.reg d + i) s

/-- IRP1: the uninterpreted `cfg.irp1` (R147). -/
def execIrp1 (src : RI) (d : Reg) (s : State) : Result :=
  toDest src d (Config.irp1 (srcOf s src)) s

/-- IRP2: the uninterpreted `cfg.irp2`; the result replaces the operand (R148). -/
def execIrp2 (d : Reg) (s : State) : Result := toReg d (Config.irp2 (s.reg d)) s

/-- IRP: refused always (R149). -/
def execIrp (_src : RI) (_d : Reg) (s : State) : Result := refuse .reciprocal s

end Sys2Proof.Machine
end

