-- ==== Sys2Proof/Machine/Shift.lean ====
section
/-! DEFINITION. The SHIFT unit (43_shift.md): counts 0 to 31 (R173), no flag is written, every right
shift but SRA's is logical, intermediates are truncated to 32 bits. -/

namespace Sys2Proof.Machine

/-- Rotates left by `n` of 0..31 (R163). -/
def rotl (x : Word) (n : Nat) : Word := if n = 0 then x else x <<< n ||| x >>> (32 - n)

/-- Rotates right by `n` of 0..31 (R164). -/
def rotr (x : Word) (n : Nat) : Word := if n = 0 then x else x >>> n ||| x <<< (32 - n)

/-- SHL (R160). -/
def execShl (v : Val) (r : Reg) (d : Reg) (s : State) : Result :=
  withCount v s fun n => toReg d (s.reg r <<< n) s

/-- SHR (R161). -/
def execShr (v : Val) (r : Reg) (d : Reg) (s : State) : Result :=
  withCount v s fun n => toReg d (s.reg r >>> n) s

/-- SRA: copies of bit 31 enter at the top (R162). -/
def execSra (v : Val) (r : Reg) (d : Reg) (s : State) : Result :=
  withCount v s fun n => toReg d ((s.reg r).sshiftRight n) s

/-- ROL (R163). -/
def execRol (v : Val) (r : Reg) (d : Reg) (s : State) : Result :=
  withCount v s fun n => toReg d (rotl (s.reg r) n) s

/-- ROR (R164). -/
def execRor (v : Val) (r : Reg) (d : Reg) (s : State) : Result :=
  withCount v s fun n => toReg d (rotr (s.reg r) n) s

/-- SLA: shift `r2` left, add the operand (R165). -/
def execSla (v : Val) (src : RI) (d : Reg) (s : State) : Result :=
  withCount v s fun n => toDest src d (s.reg d <<< n + srcOf s src) s

/-- SLR: shift `r2` right, add the operand (R166). -/
def execSlr (v : Val) (src : RI) (d : Reg) (s : State) : Result :=
  withCount v s fun n => toDest src d (s.reg d >>> n + srcOf s src) s

/-- SAL: add, then shift left (R167). -/
def execSal (v : Val) (r : Reg) (d : Reg) (s : State) : Result :=
  withCount v s fun n => toReg d ((s.reg r + s.reg d) <<< n) s

/-- SAR: add, then shift right (R168). -/
def execSar (v : Val) (r : Reg) (d : Reg) (s : State) : Result :=
  withCount v s fun n => toReg d ((s.reg r + s.reg d) >>> n) s

/-- SLM: shift the operand left, multiply by `r2` (R169). -/
def execSlm (v : Val) (src : RI) (d : Reg) (s : State) : Result :=
  withCount v s fun n => toDest src d (srcOf s src <<< n * s.reg d) s

/-- SRM: shift the operand right, multiply by `r2` (R170). -/
def execSrm (v : Val) (src : RI) (d : Reg) (s : State) : Result :=
  withCount v s fun n => toDest src d (srcOf s src >>> n * s.reg d) s

/-- SML: multiply, then shift left (R171). -/
def execSml (v : Val) (src : RI) (d : Reg) (s : State) : Result :=
  withCount v s fun n => toDest src d ((s.reg d * srcOf s src) <<< n) s

/-- SMR: multiply, then shift right (R172). -/
def execSmr (v : Val) (src : RI) (d : Reg) (s : State) : Result :=
  withCount v s fun n => toDest src d ((s.reg d * srcOf s src) >>> n) s

end Sys2Proof.Machine
end

