-- ==== Sys2Proof/Machine/Sys.lean ====
section
/-! DEFINITION. The SYS unit (40_sys.md). -/

namespace Sys2Proof.Machine

/-- NOP (R100). -/
def execNop (s : State) : Result := goOn false s

/-- The shape of HLT, STI and CLI (`<ri1>, <adr>`, R101, R104, R105): the mask before the change is
saved at the address if one is given, then the state is changed, `f` having the mask operand's value
if that is present. Nothing is written when the save stops. -/
def maskOp (m : Option RI) (save : Adr) (s : State) (f : Option Word → State → State) : Result :=
  if twoArgs m save then refuse (.illFormed .oneArg) s
  else
    match (if adrPresent save then memWrite s (eaOf s save) s.imask else .ok s) with
    | .error e => stopWith e s
    | .ok t => .next ((f (m.map (srcOf s)) t).advance (optArg m || adrArg save))

/-- The mask HLT leaves: the interrupts to ignore are disabled (R101). -/
def hltMask (old : Word) : Option Word → Word
  | some v => old &&& ~~~v
  | none => old

/-- The mask STI leaves: the mask's interrupts are enabled, or all (R104). -/
def stiMask (old : Word) : Option Word → Word
  | some v => old ||| v
  | none => 0xFFFFFFFF

/-- The mask CLI leaves: the mask's interrupts are disabled, or all (R105). -/
def cliMask (old : Word) : Option Word → Word
  | some v => old &&& ~~~v
  | none => 0

/-- HLT (R101). -/
def execHlt (m : Option RI) (save : Adr) (s : State) : Result :=
  maskOp m save s fun v t => { t with imask := hltMask t.imask v, halted := true }

/-- RST: ends the run with the outcome `Reset(reboot)`; nothing else is written (R102). -/
def execRst (n : VR) (s : State) : Result :=
  .next { s with outcome := some (.reset (vrOf s n != 0)) }

/-- INT: makes interrupt `n` pending; a number that has no line is refused (R103). -/
def execInt (n : VR) (s : State) : Result :=
  if Config.numIrq ≤ (vrOf s n).toNat then refuse (.irqNumber (vrOf s n)) s
  else .next ({ s with ipend := s.ipend ||| 1#32 <<< (vrOf s n).toNat }.advance false)

/-- STI (R104). -/
def execSti (m : Option RI) (save : Adr) (s : State) : Result :=
  maskOp m save s fun v t => { t with imask := stiMask t.imask v }

/-- CLI (R105). -/
def execCli (m : Option RI) (save : Adr) (s : State) : Result :=
  maskOp m save s fun v t => { t with imask := cliMask t.imask v }

/-- RCL: reserves the cache line of the address, which is not accessed (R106). -/
def execRcl (adr : Adr) (s : State) : Result :=
  goOn (adrArg adr) { s with resv := some ((eaOf s adr).toNat / Config.cacheline) }

/-- WFE: holds for an event that never comes; the outcome is `stuck`, nothing else is written (R107,
R304). -/
def execWfe (_v : Val) (s : State) : Result := .next { s with outcome := some .stuck }

/-- SEV: no receiver, so no state change (R108). -/
def execSev (_v : Val) (s : State) : Result := goOn false s

/-- RPC: the counter's value is undetermined (R109). -/
def execRpc (_v : Val) (d : Reg) (s : State) : Result := toReg d s.drawn s.nextDraw

/-- LDX: refused, no system register is defined (R110). -/
def execLdx (v : Val) (_r : Reg) (s : State) : Result := refuse (.systemRegister v) s

/-- STX: stores an undetermined word (R111). -/
def execStx (_v : Val) (adr : Adr) (s : State) : Result :=
  match memWrite s (eaOf s adr) s.drawn with
  | .error e => stopWith e s
  | .ok t => .next (t.nextDraw.advance (adrArg adr))

/-- IPG: refused, no translation is defined (R112). -/
def execIpg (_adr : Adr) (s : State) : Result := refuse .translation s

/-- PFC: a hint; the address is not checked (R113). -/
def execPfc (adr : Adr) (s : State) : Result := goOn (adrArg adr) s

/-- FLC: caches are not state (R114). -/
def execFlc (s : State) : Result := goOn false s

/-- PLK: refused, no page entry is defined (R115). -/
def execPlk (_adr : Adr) (s : State) : Result := refuse .translation s

/-- BRD: one agent, program-order memory (R116, R54). -/
def execBrd (s : State) : Result := goOn false s

/-- BWR (R117, R54). -/
def execBwr (s : State) : Result := goOn false s

/-- BAR (R118, R54). -/
def execBar (s : State) : Result := goOn false s

end Sys2Proof.Machine
end

