-- ==== Sys2Proof/Machine/Xfer.lean ====
section
/-! DEFINITION. The XFER unit (47_xfer.md): LDR, STR, PSH and POP are decided, one aligned 32-bit word
each, on a full-descending stack; every fault is found before anything is written (R269). The others
are refused. -/

namespace Sys2Proof.Machine

/-- CKR: refused always (R260). -/
def execCkr (s : State) : Result := refuse (.notDefined "CKR") s

/-- CKW: refused always (R261). -/
def execCkw (s : State) : Result := refuse (.notDefined "CKW") s

/-- CKX: refused always (R262). -/
def execCkx (s : State) : Result := refuse (.notDefined "CKX") s

/-- LDR (R263). -/
def execLdr (adr : Adr) (d : Reg) (s : State) : Result :=
  match memRead s (eaOf s adr) with
  | .error e => stopWith e s
  | .ok w => .next ((s.setReg d w).advance (adrArg adr))

/-- LDN: refused always (R264). -/
def execLdn (s : State) : Result := refuse (.notDefined "LDN") s

/-- LDC: refused always (R265). -/
def execLdc (_v : Val) (s : State) : Result := refuse (.notDefined "LDC") s

/-- STR (R266). -/
def execStr (r : Reg) (adr : Adr) (s : State) : Result :=
  match memWrite s (eaOf s adr) (s.reg r) with
  | .error e => stopWith e s
  | .ok t => .next (t.advance (adrArg adr))

/-- STN: refused always (R267). -/
def execStn (s : State) : Result := refuse (.notDefined "STN") s

/-- STC: refused always (R268). -/
def execStc (_v : Val) (s : State) : Result := refuse (.notDefined "STC") s

/-- The address PSH stores at: SP less 4 (R270). -/
def pushAddr (s : State) : Word := s.reg spReg - 4

/-- PSH: stores below SP, the old SP for `PSH SP`, then moves SP down (R270). -/
def execPsh (r : Reg) (s : State) : Result :=
  match memWrite s (pushAddr s) (s.reg r) with
  | .error e => stopWith e s
  | .ok t => .next ((t.setReg spReg (pushAddr s)).advance false)

/-- PSM: refused always (R271). -/
def execPsm (s : State) : Result := refuse (.notDefined "PSM") s

/-- POP: loads at SP, moves SP up, then writes the register, so that `POP SP` leaves the word (R272). -/
def execPop (d : Reg) (s : State) : Result :=
  match memRead s (s.reg spReg) with
  | .error e => stopWith e s
  | .ok w => .next (((s.setReg spReg (s.reg spReg + 4)).setReg d w).advance false)

/-- POM: refused always (R273). -/
def execPom (s : State) : Result := refuse (.notDefined "POM") s

/-- IOC: refused always (R274). -/
def execIoc (_v : Val) (s : State) : Result := refuse (.notDefined "IOC") s

/-- IOP: refused always (R275). -/
def execIop (s : State) : Result := refuse (.notDefined "IOP") s

/-- IRD: refused always (R276). -/
def execIrd (s : State) : Result := refuse (.notDefined "IRD") s

/-- IWR: refused always (R277). -/
def execIwr (s : State) : Result := refuse (.notDefined "IWR") s

end Sys2Proof.Machine
end

