-- ==== Sys2Proof/Machine/Dispatch.lean ====
section
/-! DEFINITION. The meaning of each instruction: one arm per row of the opcode table. -/

namespace Sys2Proof.Machine

def exec (i : Instr) (s : State) : Host.Outcome State Fault Refusal :=
  match i with
  | .nop => Sys2Proof.Machine.execNop s
  | .hlt m save => Sys2Proof.Machine.execHlt m save s
  | .rst n => Sys2Proof.Machine.execRst n s
  | .int n => Sys2Proof.Machine.execInt n s
  | .sti m save => Sys2Proof.Machine.execSti m save s
  | .cli m save => Sys2Proof.Machine.execCli m save s
  | .rcl adr => Sys2Proof.Machine.execRcl adr s
  | .wfe v => Sys2Proof.Machine.execWfe v s
  | .sev v => Sys2Proof.Machine.execSev v s
  | .rpc v d => Sys2Proof.Machine.execRpc v d s
  | .ldx v r => Sys2Proof.Machine.execLdx v r s
  | .stx v adr => Sys2Proof.Machine.execStx v adr s
  | .ipg adr => Sys2Proof.Machine.execIpg adr s
  | .pfc adr => Sys2Proof.Machine.execPfc adr s
  | .flc => Sys2Proof.Machine.execFlc s
  | .plk adr => Sys2Proof.Machine.execPlk adr s
  | .brd => Sys2Proof.Machine.execBrd s
  | .bwr => Sys2Proof.Machine.execBwr s
  | .bar => Sys2Proof.Machine.execBar s
  | .not src d => Sys2Proof.Machine.execNot src d s
  | .neg src d => Sys2Proof.Machine.execNeg src d s
  | .and src d => Sys2Proof.Machine.execAnd src d s
  | .ior src d => Sys2Proof.Machine.execIor src d s
  | .xor src d => Sys2Proof.Machine.execXor src d s
  | .inc d => Sys2Proof.Machine.execInc d s
  | .dec d => Sys2Proof.Machine.execDec d s
  | .add src d => Sys2Proof.Machine.execAdd src d s
  | .adc src d => Sys2Proof.Machine.execAdc src d s
  | .sub src d => Sys2Proof.Machine.execSub src d s
  | .sbb src d => Sys2Proof.Machine.execSbb src d s
  | .cmp src r => Sys2Proof.Machine.execCmp src r s
  | .zex src d => Sys2Proof.Machine.execZex src d s
  | .sex src d => Sys2Proof.Machine.execSex src d s
  | .mul src d => Sys2Proof.Machine.execMul src d s
  | .mlh src d => Sys2Proof.Machine.execMlh src d s
  | .div src d => Sys2Proof.Machine.execDiv src d s
  | .rem src d => Sys2Proof.Machine.execRem src d s
  | .msl v src d => Sys2Proof.Machine.execMsl v src d s
  | .msr v r d => Sys2Proof.Machine.execMsr v r d s
  | .mad imm r d => Sys2Proof.Machine.execMad imm r d s
  | .irp1 src d => Sys2Proof.Machine.execIrp1 src d s
  | .irp2 d => Sys2Proof.Machine.execIrp2 d s
  | .irp src d => Sys2Proof.Machine.execIrp src d s
  | .shl v r d => Sys2Proof.Machine.execShl v r d s
  | .shr v r d => Sys2Proof.Machine.execShr v r d s
  | .sra v r d => Sys2Proof.Machine.execSra v r d s
  | .rol v r d => Sys2Proof.Machine.execRol v r d s
  | .ror v r d => Sys2Proof.Machine.execRor v r d s
  | .sla v src d => Sys2Proof.Machine.execSla v src d s
  | .slr v src d => Sys2Proof.Machine.execSlr v src d s
  | .sal v r d => Sys2Proof.Machine.execSal v r d s
  | .sar v r d => Sys2Proof.Machine.execSar v r d s
  | .slm v src d => Sys2Proof.Machine.execSlm v src d s
  | .srm v src d => Sys2Proof.Machine.execSrm v src d s
  | .sml v src d => Sys2Proof.Machine.execSml v src d s
  | .smr v src d => Sys2Proof.Machine.execSmr v src d s
  | .clz src d => Sys2Proof.Machine.execClz src d s
  | .ham src d => Sys2Proof.Machine.execHam src d s
  | .par src d => Sys2Proof.Machine.execPar src d s
  | .swp wide src d => Sys2Proof.Machine.execSwp wide src d s
  | .bec src d => Sys2Proof.Machine.execBec src d s
  | .bdc src d => Sys2Proof.Machine.execBdc src d s
  | .crc wide => Sys2Proof.Machine.execCrc wide s
  | .ecc => Sys2Proof.Machine.execEcc s
  | .hsh src d => Sys2Proof.Machine.execHsh src d s
  | .hun src d => Sys2Proof.Machine.execHun src d s
  | .ldl => Sys2Proof.Machine.execLdl s
  | .stl => Sys2Proof.Machine.execStl s
  | .btc => Sys2Proof.Machine.execBtc s
  | .bts => Sys2Proof.Machine.execBts s
  | .xadd => Sys2Proof.Machine.execXadd s
  | .xinc => Sys2Proof.Machine.execXinc s
  | .xdec => Sys2Proof.Machine.execXdec s
  | .cas => Sys2Proof.Machine.execCas s
  | .jmp adr => Sys2Proof.Machine.execJmp adr s
  | .jmr => Sys2Proof.Machine.execJmr s
  | .bzf adr => Sys2Proof.Machine.execBzf adr s
  | .beq adr => Sys2Proof.Machine.execBeq adr s
  | .bne adr => Sys2Proof.Machine.execBne adr s
  | .blt adr => Sys2Proof.Machine.execBlt adr s
  | .ble adr => Sys2Proof.Machine.execBle adr s
  | .bgt adr => Sys2Proof.Machine.execBgt adr s
  | .bge adr => Sys2Proof.Machine.execBge adr s
  | .bcf adr => Sys2Proof.Machine.execBcf adr s
  | .bnc adr => Sys2Proof.Machine.execBnc adr s
  | .bof adr => Sys2Proof.Machine.execBof adr s
  | .bno adr => Sys2Proof.Machine.execBno adr s
  | .bsf adr => Sys2Proof.Machine.execBsf adr s
  | .bns adr => Sys2Proof.Machine.execBns adr s
  | .beg => Sys2Proof.Machine.execBeg s
  | .fin => Sys2Proof.Machine.execFin s
  | .mkf v => Sys2Proof.Machine.execMkf v s
  | .csr adr => Sys2Proof.Machine.execCsr adr s
  | .sys => Sys2Proof.Machine.execSys s
  | .thr => Sys2Proof.Machine.execThr s
  | .thc v => Sys2Proof.Machine.execThc v s
  | .thw => Sys2Proof.Machine.execThw s
  | .thy => Sys2Proof.Machine.execThy s
  | .ret => Sys2Proof.Machine.execRet s
  | .srt => Sys2Proof.Machine.execSrt s
  | .thx => Sys2Proof.Machine.execThx s
  | .irt => Sys2Proof.Machine.execIrt s
  | .ckr => Sys2Proof.Machine.execCkr s
  | .ckw => Sys2Proof.Machine.execCkw s
  | .ckx => Sys2Proof.Machine.execCkx s
  | .ldr adr d => Sys2Proof.Machine.execLdr adr d s
  | .ldn => Sys2Proof.Machine.execLdn s
  | .ldc v => Sys2Proof.Machine.execLdc v s
  | .str r adr => Sys2Proof.Machine.execStr r adr s
  | .stn => Sys2Proof.Machine.execStn s
  | .stc v => Sys2Proof.Machine.execStc v s
  | .psh r => Sys2Proof.Machine.execPsh r s
  | .psm => Sys2Proof.Machine.execPsm s
  | .pop d => Sys2Proof.Machine.execPop d s
  | .pom => Sys2Proof.Machine.execPom s
  | .ioc v => Sys2Proof.Machine.execIoc v s
  | .iop => Sys2Proof.Machine.execIop s
  | .ird => Sys2Proof.Machine.execIrd s
  | .iwr => Sys2Proof.Machine.execIwr s

end Sys2Proof.Machine
end

