-- ==== Sys2Proof/Machine/Fetch.lean ====
section
/-! DEFINITION. What the step does before it executes: the stops of R345 steps 1 to 3, the fetch of
the record at `pc` and its checks (steps 4 to 6), and where a record is placed in the text. -/

namespace Sys2Proof.Machine

/-- An enabled interrupt is pending: `(IPEND and IMASK) != 0` (R312). -/
def deliverable (s : State) : Bool := s.ipend &&& s.imask != 0

/-- `Text(a)` (R62). -/
def textAt (t : Text) (a : Word) : Option Record :=
  match t with
  | [] => none
  | e :: t => if e.1 = a then some e.2 else textAt t a

/-- The bytes of two instructions overlap, holes included (WF_TEXT, R74). -/
def overlap (e f : Word × Record) : Bool := occupies e.1 e.2 f.1 || occupies f.1 f.2 e.1

/-- WF_TEXT, asked of the whole program: every parcel is at an even address and no two instructions
overlap (R74; when it is asked is log entry 12). -/
def wfText : Text → Bool
  | [] => true
  | e :: t => e.1.toNat % 2 == 0 && t.all (fun f => !overlap e f) && wfText t

/-- The decoder's reason as a refusal (R74, R307). -/
def rejection : Reject → Refusal
  | .illFormed c => .illFormed c
  | .pcOperand => .pcOperand

/-- Fetches and checks the instruction at `pc` (R345 steps 4 to 6, in the order of R313 (c)). -/
def fetch (s : State) : Except Stop Instr :=
  if s.pc.toNat % 2 ≠ 0 then .error (.fault (.misalignedFetch s.pc))
  else
    match textAt s.text s.pc with
    | none => .error (.refuse .noInstruction)
    | some r =>
      match decode r with
      | .error e => .error (.refuse (rejection e))
      | .ok i => if wfText s.text then .ok i else .error (.refuse (.illFormed .text))

/-- The instruction this step executes, or why there is none (R345 steps 1 to 6). -/
def issue (s : State) : Except Stop Instr :=
  match s.outcome with
  | some e => .error (.fault (.ended e))
  | none =>
    if deliverable s then .error (.refuse .trapEntry)
    else if s.halted then .error (.fault .final)
    else fetch s

/-- Inserts an entry into a text whose addresses rise. -/
def insertText (e : Word × Record) : Text → Text
  | [] => [e]
  | f :: t => if e.1.toNat < f.1.toNat then e :: f :: t else f :: insertText e t

/-- The text with record `r` at `a`, in place of every instruction whose bytes it would overlap, and of the
whole text where that is not well formed (log entry 3). -/
def placeText (t : Text) (a : Word) (r : Record) : Text :=
  insertText (a, r) (t.filter fun e => wfText t && !overlap e (a, r))

end Sys2Proof.Machine
end

