-- ==== Sys2Proof/Machine/Step.lean ====
section
/-! DEFINITION. One step of the machine (R345) and the placing of an instruction where the next step
fetches it. -/

namespace Sys2Proof.Machine

/-- One step: the instruction at `pc` is fetched, checked and executed, or the run stops (R345). -/
def step (s : State) : Host.Outcome State Fault Refusal :=
  match issue s with
  | .error e => stopWith e s
  | .ok i => exec i s

/-- The state with the instruction whose table bits are `w` placed in the text at `pc`: it
stands for the load of a program (log entry 3). -/
def State.withFetchWord (s : State) (nbits w : Nat) : State :=
  { s with text := placeText s.text s.pc (recordOfBits (tableBits nbits w)) }

end Sys2Proof.Machine
end

