-- ==== Sys2Proof/Safety.lean ====
section
/-! DEFINITION. The terms the claims are stated in: the kinds of instruction, what a step changes and
what it leaves (the frame), what an access may touch, and the invariant of a run. -/

namespace Sys2Proof.Machine

/-! ## Kinds of instruction -/

/-- The instruction takes the argument parcel, for its immediate or its address offset (R63). -/
def takesArg : Instr → Bool
  | .hlt m a | .sti m a | .cli m a => optArg m || adrArg a
  | .rcl a | .stx _ a | .ipg a | .pfc a | .plk a => adrArg a
  | .not src _ | .neg src _ | .and src _ | .ior src _ | .xor src _ => srcArg src
  | .add src _ | .adc src _ | .sub src _ | .sbb src _ | .cmp src _ => srcArg src
  | .zex src _ | .sex src _ => srcArg src
  | .mul src _ | .mlh src _ | .div src _ | .rem src _ | .msl _ src _ => srcArg src
  | .mad _ _ _ => true
  | .irp1 src _ | .irp src _ => srcArg src
  | .sla _ src _ | .slr _ src _ | .slm _ src _ | .srm _ src _ | .sml _ src _ | .smr _ src _ => srcArg src
  | .clz src _ | .ham src _ | .par src _ | .swp _ src _ | .bec src _ | .bdc src _ => srcArg src
  | .hsh src _ | .hun src _ => srcArg src
  | .jmp a | .bzf a | .beq a | .bne a | .blt a | .ble a | .bgt a | .bge a => adrArg a
  | .bcf a | .bnc a | .bof a | .bno a | .bsf a | .bns a | .csr a => adrArg a
  | .ldr a _ | .str _ a => adrArg a
  | _ => false

/-- A branch, with the condition it tests (R255). -/
def branchCond? (f : Flags) : Instr → Option Bool
  | .bzf _ | .beq _ => some f.zf
  | .bne _ => some (!f.zf)
  | .blt _ => some (f.sf != f.ovf)
  | .ble _ => some (f.zf || f.sf != f.ovf)
  | .bgt _ => some (!f.zf && f.sf == f.ovf)
  | .bge _ => some (f.sf == f.ovf)
  | .bcf _ => some f.cf
  | .bnc _ => some (!f.cf)
  | .bof _ => some f.ovf
  | .bno _ => some (!f.ovf)
  | .bsf _ => some f.sf
  | .bns _ => some (!f.sf)
  | _ => none

/-- The instruction transfers control in a state with these flags: JMP, CSR, RET, and a branch that is
taken (R19). -/
def transfers (f : Flags) (i : Instr) : Bool :=
  match i with
  | .jmp _ | .csr _ | .ret => true
  | i => branchCond? f i == some true

/-- The instruction ends the run by the outcome it sets: RST and WFE (R102, R107). -/
def endsRun : Instr → Bool
  | .rst _ | .wfe _ => true
  | _ => false

/-! ## What a record of each kind of instruction may hold -/

/-- The instruction has an `adr` operand (R68), so its record may have `NDX` or `REG` set (WF_ADR). -/
def takesAdr : Instr → Bool
  | .hlt _ _ | .sti _ _ | .cli _ _ | .rcl _ | .stx _ _ | .ipg _ | .pfc _ | .plk _ => true
  | .jmp _ | .bzf _ | .beq _ | .bne _ | .blt _ | .ble _ | .bgt _ | .bge _ => true
  | .bcf _ | .bnc _ | .bof _ | .bno _ | .bsf _ | .bns _ | .csr _ => true
  | .ldr _ _ | .str _ _ => true
  | _ => false

/-- The instruction has the optional `<ri1>` (R68), so its record may have `P1` set (WF_P1). -/
def takesOpt : Instr → Bool
  | .hlt _ _ | .sti _ _ | .cli _ _ => true
  | _ => false

/-- The instruction has an `ri1` or `i` operand (R68), so its record may have `IMM` set (WF_IMM). -/
def takesRi : Instr → Bool
  | .hlt _ _ | .sti _ _ | .cli _ _ => true
  | .not _ _ | .neg _ _ | .and _ _ | .ior _ _ | .xor _ _ | .add _ _ | .adc _ _ | .sub _ _ => true
  | .sbb _ _ | .cmp _ _ | .zex _ _ | .sex _ _ => true
  | .mul _ _ | .mlh _ _ | .div _ _ | .rem _ _ | .msl _ _ _ | .mad _ _ _ | .irp1 _ _ | .irp _ _ => true
  | .sla _ _ _ | .slr _ _ _ | .slm _ _ _ | .srm _ _ _ | .sml _ _ _ | .smr _ _ _ => true
  | .clz _ _ | .ham _ _ | .par _ _ | .swp _ _ _ | .bec _ _ | .bdc _ _ | .hsh _ _ | .hun _ _ => true
  | _ => false

/-- The VAL, FLAG1 and FLAG2 bits, as one number, that select an instruction of the unit and operation
number: the rows of R77, unit by unit (the numbers of units 0 to 2 are provisional, log entry 19). -/
def rowFlags (unit op : Nat) : List (BitVec 3) :=
  match unit, op with
  | 0, 1 | 0, 2 => [0b000, 0b100]
  | 0, op => if 6 ≤ op ∧ op ≤ 10 then [0b100] else if op ≤ 17 then [0b000] else []
  | 1, op => if op ≤ 13 then [0b000] else []
  | 2, op => if op = 4 ∨ op = 5 then [0b100] else if op ≤ 9 then [0b000] else []
  | 3, 0 => [0b000, 0b010, 0b011, 0b100, 0b110]
  | 3, 1 => [0b000, 0b010, 0b001, 0b011]
  | 3, 2 => [0b000, 0b010]
  | 3, 3 => [0b000, 0b001]
  | 4, 0 => [0b000, 0b010, 0b001]
  | 4, 1 | 4, 2 => [0b000, 0b010]
  | 4, 4 => [0b000, 0b010, 0b011]
  | 4, 5 => [0b000, 0b010]
  | 5, 0 => [0b000, 0b001]
  | 5, 1 => [0b000, 0b010]
  | 5, 2 => [0b000, 0b010, 0b001]
  | 5, 3 => [0b000]
  | 6, 0 => [0b000, 0b010]
  | 6, 1 => [0b100]
  | 6, 2 => [0b000, 0b010, 0b100]
  | 6, 3 => [0b000, 0b010]
  | 6, 4 => [0b000, 0b010, 0b001, 0b011]
  | 6, 5 => [0b000, 0b100, 0b010, 0b001]
  | 7, 0 => [0b000, 0b010, 0b001]
  | 7, 1 | 7, 2 => [0b000, 0b010, 0b100]
  | 7, 3 => [0b000, 0b010, 0b001, 0b011]
  | 7, 4 => [0b000, 0b010, 0b001, 0b100]
  | _, _ => []

/-- The record's selector is one R77 lists: NOP's parcel of all 1-bits, or a unit, operation and flag bits
of `rowFlags`, for a branch with a condition code of 0x00 to 0x0C (R255). -/
def namedSelector (r : Record) : Bool :=
  r.sel == 0x7FFFF ||
    ((rowFlags r.unit.toNat r.op.toNat).contains
      (BitVec.ofBool r.val1 ++ BitVec.ofBool r.flag1 ++ BitVec.ofBool r.flag2) &&
    (!(r.unit == 6 && r.op == 1) || r.val.toNat ≤ 0x0C))

/-- The register fields of a record that are operands of an instruction of the format (R68). That the
base of an `adr` is one only with `REG` set, the `r1` of an `ri1` only with `IMM` clear, of an `<ri1>`
only with `P1` set, and of a `vr1` only with `VAL` clear, is the model's choice (log entry 25). -/
def usedRegs (f : Format) (r : Record) : List (BitVec 4) :=
  let src := if r.imm then [] else [r.r1]
  let base (rb : BitVec 4) := if r.reg then [rb] else []
  match f with
  | .parcel _ | .none _ | .v _ | .unknown _ | .unknownV _ | .unknownFlag _ => []
  | .optRiAdr _ => (if r.p1 then src else []) ++ base r.r2
  | .vr _ => if r.val1 then [] else [r.r1]
  | .adr _ | .condAdr _ => base r.r1
  | .vR _ | .r _ => [r.r1]
  | .vAdr _ => base r.r2
  | .riR _ | .riRFlag _ | .ri _ | .vRiR _ => src ++ [r.r2]
  | .vRR _ | .iRR _ => [r.r1, r.r2]
  | .adrR _ => base r.r1 ++ [r.r2]
  | .rAdr _ => [r.r1] ++ base r.r2

/-! ## What a step changes and what it leaves -/

/-- Every register but those listed reads as before. -/
def keepsRegsBut (ds : List Reg) (s t : State) : Prop := ∀ r, r ∉ ds → t.reg r = s.reg r

/-- Every byte of memory reads as before. -/
def keepsMem (s t : State) : Prop := ∀ a, memByte t.mem a = memByte s.mem a

/-- The interrupt state, `halted`, the mode, the reservation, the outcome, the program and `MemMap` are
as before. -/
def keepsControl (s t : State) : Prop :=
  t.imask = s.imask ∧ t.ipend = s.ipend ∧ t.halted = s.halted ∧ t.mode = s.mode ∧
    t.resv = s.resv ∧ t.outcome = s.outcome ∧ t.text = s.text ∧ t.memMap = s.memMap

/-- Register `d` reads `v`, or zero if it is R0 (R14). -/
def holds (d : Reg) (v : Word) (t : State) : Prop := t.reg d = if d = 0 then 0 else v

/-- The state `t` is `s` but for register `d`, which holds `v`, and `pc`, which is `next` for an
instruction with or without an argument parcel (R66). -/
def onlyWrites (d : Reg) (v : Word) (hasArg : Bool) (s t : State) : Prop :=
  holds d v t ∧ keepsRegsBut [d] s t ∧ t.flags = s.flags ∧ keepsMem s t ∧ keepsControl s t ∧
    t.draws = s.draws ∧ t.pc = nextAddr s.pc hasArg

/-- The state `t` is `s` but for `pc`, which is `a`. -/
def onlyGoesTo (a : Word) (s t : State) : Prop :=
  keepsRegsBut [] s t ∧ t.flags = s.flags ∧ keepsMem s t ∧ keepsControl s t ∧ t.draws = s.draws ∧
    t.pc = a

/-- The four bytes from `a` on hold the word `v`, the lowest address the low byte (R43, R45). -/
def wordAt (m : Memory) (a v : Word) : Prop :=
  ∀ k, k < 4 → memByte m (a.toNat + k) = some (v.extractLsb' (8 * k) 8)

/-- Every byte outside the four from `a` on reads as before. -/
def keepsMemOutside (a : Word) (s t : State) : Prop :=
  ∀ x, x < a.toNat ∨ a.toNat + 4 ≤ x → memByte t.mem x = memByte s.mem x

/-- The word at `a` is `v` and every other byte of memory reads as before. -/
def stores (a v : Word) (s t : State) : Prop := wordAt t.mem a v ∧ keepsMemOutside a s t

/-- A word access at `a` is admitted: aligned, outside the text region, inside `MemMap` (R44, R45). -/
def accessible (s : State) (a : Word) : Prop :=
  a.toNat % 4 = 0 ∧ ∀ x ∈ wordAddrs a, inText s.text x = false ∧ inMemMap s.memMap x = true

/-! ## The invariant -/

/-- Memory is in canonical form, every byte that holds a value is data memory (inside `MemMap`, outside
the text region), and the mode is system. -/
def Inv (s : State) : Prop :=
  Memory.wf s.mem ∧
    (∀ c ∈ s.mem, inMemMap s.memMap (BitVec.ofNat 32 c.1) = true ∧
      inText s.text (BitVec.ofNat 32 c.1) = false) ∧
    s.mode = .system

end Sys2Proof.Machine
end

