-- ==== Sys2Proof/Certificates/Slice0/Obligations.lean ====
section
/-! DEFINITION. The statements for the provers. Each docstring names the rule of spec/ it formalises, or
says that the spec marks the clause as its own decision (92_eei_decisions.md) or that the model chose it
(the log entry). -/

open Sys2Proof Sys2Proof.Machine

/-! ## Decoding and encoding -/

/-- Decoding an encoded well-formed instruction gives it back, every operand at every value the
encoding admits. The operation numbers are partly the spec's decisions (D22, D23). -/
def Obligations.DecodeUndoesEncode : Prop :=
  ∀ i : Instr, wellFormed i = true → decode (encode i) = .ok i

/-- The model's numbering of a record's bits (log entry 3, the model's choice) loses nothing: every
record with MAD's implied IMM set is read back from its bits. -/
def Obligations.RecordBitsRoundTrip : Prop :=
  ∀ r : Record, (r.sel &&& 0x7FF80 = madSel → r.imm = true) → recordOfBits (bitsOfRecord r) = r

/-- No selector word selects two rows of the opcode table (30_encoding.md section 5; the selector word
is the spec's decision D23). -/
def Obligations.OpcodeRowsAreDisjoint : Prop :=
  ∀ s : BitVec 19, ∀ a ∈ opcodeTable, ∀ b ∈ opcodeTable,
    a.selects s = true → b.selects s = true → a.mnemonic = b.mnemonic

/-- What the decoder accepts is well formed, and the record is as long as the instruction: the fetch and
the meaning agree on the argument parcel. And the decoder refuses stray presence bits: with NDX or REG
set in a record whose instruction has no address it answers IllFormed(WF_ADR), with P1 set where there is
no optional operand, or IMM set and P1 clear where there is one, IllFormed(WF_P1), with IMM set where
there is no `ri1` or `i`, or clear in MAD, IllFormed(WF_IMM), and with IMM and NDX both set
IllFormed(WF_ONE_ARG); NOP alone is read whatever these bits are (30_encoding.md sections 1 and 4; the
spec's decisions D5, D7, D8, D9; NOP is log entry 13). -/
def Obligations.DecodedIsWellFormed : Prop :=
  ∀ (r : Record) (i : Instr), decode r = .ok i →
    wellFormed i = true ∧ r.hasArg = takesArg i ∧
    (i = .nop → ∀ n g m p, decode { r with ndx := n, reg := g, imm := m, p1 := p } = .ok .nop) ∧
    (i ≠ .nop →
      (takesAdr i = false → r.ndx = false ∧ r.reg = false ∧
        decode { r with reg := true } = .error (.illFormed .adr) ∧
        (r.imm = false → decode { r with ndx := true } = .error (.illFormed .adr))) ∧
      (takesOpt i = false → r.p1 = false ∧
        decode { r with p1 := true } = .error (.illFormed .p1)) ∧
      (takesOpt i = true → r.ndx = false →
        decode { r with imm := true, p1 := false } = .error (.illFormed .p1)) ∧
      (takesRi i = false → r.imm = false ∧
        (r.ndx = false → decode { r with imm := true } = .error (.illFormed .imm))) ∧
      ((∃ c x d, i = .mad c x d) → decode { r with imm := false } = .error (.illFormed .imm)) ∧
      decode { r with imm := true, ndx := true } = .error (.illFormed .oneArg))

/-- The decoder answers IllFormed(WF_SELECTOR) for exactly the records whose selector R77 does not list: the
unit codes from 8 up other than the parcel of all 1-bits, every operation number without an instruction
(BIT operation 3 among them), every VAL, FLAG1, FLAG2 combination no row has (SHIFT operation 0 with VAL
and FLAG2 set), and the branch codes above 0x0C (30_encoding.md sections 5 and 6; the spec's decisions
D22, D23, D36; the numbers of the SYS, ALU and MULTI units are provisional, log entry 19). -/
def Obligations.UnnamedSelectorsAreRefused : Prop :=
  (∀ r : Record, decode r = .error (.illFormed .selector) ↔ namedSelector r = false) ∧
  ∀ r : Record,
    ((8 ≤ r.unit.toNat ∧ r.sel ≠ nopSel) ∨ (r.unit = 4 ∧ r.op = 3) ∨
      (r.unit = 6 ∧ r.op = 1 ∧ 0x0C < r.val.toNat) ∨
      (r.unit = 3 ∧ r.op = 0 ∧ r.val1 = true ∧ r.flag2 = true)) →
    decode r = .error (.illFormed .selector)

/-- In every format, a record that selects a row and passes the other checks is refused as PcOperand when a
register field that is an operand names R15, and is read otherwise, whatever its other fields hold, R15
too (10_state.md section 2, 30_encoding.md section 4; the spec's decision D11). Which fields are operands
is `usedRegs`: that a base register with REG clear, or an `r1` with IMM set, P1 clear or VAL set, is none
is the model's choice (log entry 25). -/
def Obligations.FieldFifteenIsRefused : Prop :=
  ∀ (r : Record) (row : Row), rowOf r.sel = some row → row.format.check r = none →
    (15 ∈ usedRegs row.format r → decode r = .error .pcOperand) ∧
      (15 ∉ usedRegs row.format r → ∃ i, decode r = .ok i)

/-- A few table words, read as the instructions they stand for: one for each unit. That the bits beyond
the selector word read as 0 is the model's numbering of a record (log entry 3); the words of the SYS, ALU
and MULTI units rest on the spec's provisional numbers (its decisions D22, D23; log entry 19). -/
def Obligations.TableWordsDecode : Prop :=
  decodeTableWord 24 0x7FFFF = some .nop ∧
  decodeTableWord 24 0x00A05 = some (.int (.val 5)) ∧
  decodeTableWord 24 0x0A400 = some (.sub (.reg 0) 0) ∧
  decodeTableWord 24 0x11204 = some (.msl 4 (.reg 0) 0) ∧
  decodeTableWord 24 0x18184 = some (.sra 4 0 0) ∧
  decodeTableWord 24 0x20500 = some (.swp true (.reg 0) 0) ∧
  decodeTableWord 24 0x28C00 = some .cas ∧
  decodeTableWord 24 0x30603 = some (.blt ⟨none, none⟩) ∧
  decodeTableWord 24 0x38C80 = some (.pop 0)

/-- The argument parcel of an instruction at an even `pc` is the 32-bit aligned address next after
its own parcel of two bytes (R48). -/
def Obligations.ArgumentParcelIsAligned : Prop :=
  ∀ pc : Word, pc.toNat % 2 = 0 →
    (argAddr pc).toNat % 4 = 0 ∧
    (pc.toNat % 4 = 2 → argAddr pc = pc + 2) ∧
    (pc.toNat % 4 = 0 → argAddr pc = pc + 4)

/-! ## The step -/

/-- A step runs the decoded instruction: where the run has not ended, nothing is deliverable, the
machine is not halted, `pc` is even, the text holds at `pc` a record that decodes and is well formed as a
whole (WF_TEXT, asked at the step: log entry 12), the step is `exec` of that instruction in that state
(70_reset_and_hazards.md section 3, 30_encoding.md section 4; log entry 3 for the text). -/
def Obligations.StepRunsTheDecodedInstruction : Prop :=
  ∀ (s : State) (r : Record) (i : Instr),
    s.outcome = none → deliverable s = false → s.halted = false → s.pc.toNat % 2 = 0 →
    textAt s.text s.pc = some r → decode r = .ok i → wfText s.text = true →
    step s = exec i s

/-- The order in which a step stops (70_reset_and_hazards.md section 3, 60_exceptions.md section 4 and
30_encoding.md section 4; the spec's decisions D1, D28, D29): a run that has ended takes no step, a
deliverable interrupt refuses, a halted machine is final, an odd `pc` faults, then the record is missing,
refused by the decoder, or the text is not well formed. The model's choices in it: that an ended run and
a halted machine answer by the faults named `ended` and `final` (log entry 10), and that WF_TEXT is asked
at the step, last (log entry 12). -/
def Obligations.StepStopsInOrder : Prop :=
  ∀ s : State,
    (∀ e, s.outcome = some e → step s = .fault (.ended e)) ∧
    (s.outcome = none → s.ipend &&& s.imask ≠ 0 → step s = .refused .trapEntry) ∧
    (s.outcome = none → s.ipend &&& s.imask = 0 →
      (s.halted = true → step s = .fault .final) ∧
      (s.halted = false →
        (s.pc.toNat % 2 = 1 → step s = .fault (.misalignedFetch s.pc)) ∧
        (s.pc.toNat % 2 = 0 →
          (textAt s.text s.pc = none → step s = .refused .noInstruction) ∧
          (∀ r, textAt s.text s.pc = some r →
            (∀ c, decode r = .error (.illFormed c) → step s = .refused (.illFormed c)) ∧
            (decode r = .error .pcOperand → step s = .refused .pcOperand) ∧
            (∀ i, decode r = .ok i → wfText s.text = false →
              step s = .refused (.illFormed .text))))))

/-- An instruction placed at `pc` is the one the next step runs, whatever the text held before (the
model's way of loading a program, log entry 3). -/
def Obligations.PlacedInstructionRunsNext : Prop :=
  ∀ (s : State) (nbits w : Nat) (i : Instr),
    s.outcome = none → deliverable s = false → s.halted = false → s.pc.toNat % 2 = 0 →
    decodeTableWord nbits w = some i →
    step (s.withFetchWord nbits w) = exec i (s.withFetchWord nbits w)

/-! ## Rules of the whole machine -/

/-- Every step keeps the invariant: memory in canonical form, every byte that holds a value inside
`MemMap` and outside the text region, the mode system (20_memory.md sections 1 to 3, 10_state.md
section 4; the spec's decisions D32, D37, D39, and the model's memory form, log entry 4). -/
def Obligations.EveryStepKeepsTheInvariant : Prop :=
  ∀ s t : State, Inv s → step s = .next t → Inv t

/-- The invariant holds after reset. -/
def Obligations.ResetHasTheInvariant : Prop := Inv State.reset

/-- After reset the interrupt state is clear, the machine is not halted, the mode is system, nothing is
reserved and R0 reads zero (10_state.md section 9; the spec's decision D30). That no byte of memory holds
a value, `mem = []`, is the model's: the spec leaves the initial memory to the run (log entry 4). The
values of R1 to R14, the flags, `pc` and `MemMap` are the model's choice (log entries 1, 2 and 4) and are
not stated; `pc` is even, as the spec asks of RESET_PC. -/
def Obligations.ResetIsQuiet : Prop :=
  State.reset.imask = 0 ∧ State.reset.ipend = 0 ∧ State.reset.halted = false ∧
    State.reset.mode = .system ∧ State.reset.resv = none ∧ State.reset.outcome = none ∧
    State.reset.reg 0 = 0 ∧ State.reset.pc.toNat % 2 = 0 ∧ State.reset.mem = []

/-- R0 reads zero whatever is written to it, and an instruction whose destination is R0 still has its
other effects (10_state.md section 1: that they remain is the spec's inference from the source's sentence):
ADC and SBB write CF (41_alu.md; the spec's decisions D12, D14), a division by zero faults (42_multi.md;
D17), a load stops as its read does (47_xfer.md; D25). -/
def Obligations.ZeroRegisterReadsZero : Prop :=
  ∀ s : State,
    s.reg 0 = 0 ∧ (∀ v, s.setReg 0 v = s) ∧
    (∀ src, ∃ t, exec (.adc src 0) s = .next t ∧ t.flags.cf = addCarry 0 (srcOf s src)) ∧
    (∀ src, ∃ t, exec (.sbb src 0) s = .next t ∧ t.flags.cf = subBorrow 0 (srcOf s src)) ∧
    (∀ src, srcOf s src = 0 → exec (.div src 0) s = .fault .divideByZero) ∧
    (∀ adr e, memRead s (eaOf s adr) = .error e → exec (.ldr adr 0) s = stopWith e s)

/-- The flags are written by CMP, ADC and SBB only, and ADC and SBB write CF only (10_state.md section 3;
the spec's decision D12). -/
def Obligations.OnlyCmpAdcSbbWriteFlags : Prop :=
  ∀ (i : Instr) (s t : State), exec i s = .next t →
    ((∀ src r, i ≠ .cmp src r) → t.flags.zf = s.flags.zf ∧ t.flags.ovf = s.flags.ovf ∧
      t.flags.sf = s.flags.sf) ∧
    ((∀ src r, i ≠ .cmp src r) → (∀ src d, i ≠ .adc src d) → (∀ src d, i ≠ .sbb src d) →
      t.flags = s.flags)

/-- Every instruction that transfers no control and does not end the run goes on at the sequentially
next address; an untaken branch is one (10_state.md section 2 and 30_encoding.md section 1; the length
is the spec's decision D5). -/
def Obligations.GoesOnUnlessItTransfers : Prop :=
  ∀ (i : Instr) (s t : State), exec i s = .next t →
    transfers s.flags i = false → endsRun i = false → t.pc = nextAddr s.pc (takesArg i)

/-- No step writes the program, `MemMap` or the mode (10_state.md sections 4 and 8; the spec's decisions
D32, D37). -/
def Obligations.ProgramMapAndModeAreFixed : Prop :=
  ∀ s t : State, step s = .next t → t.text = s.text ∧ t.memMap = s.memMap ∧ t.mode = s.mode

/-- Who writes the interrupt and system state: IMASK by HLT, STI and CLI, `halted` by HLT, IPEND by INT,
which clears no bit, the reservation by RCL, the outcome by RST and WFE (10_state.md sections 4 and 7;
the spec's decisions D28, D29, D33). -/
def Obligations.SystemStateHasFewWriters : Prop :=
  ∀ (i : Instr) (s t : State), exec i s = .next t →
    ((∀ m a, i ≠ .hlt m a) → t.halted = s.halted ∧
      ((∀ m a, i ≠ .sti m a) → (∀ m a, i ≠ .cli m a) → t.imask = s.imask)) ∧
    (∀ n, s.ipend.getLsbD n = true → t.ipend.getLsbD n = true) ∧
    ((∀ n, i ≠ .int n) → t.ipend = s.ipend) ∧
    ((∀ a, i ≠ .rcl a) → t.resv = s.resv) ∧
    (endsRun i = false → t.outcome = s.outcome)

/-- The reservation RCL sets is unobservable: two states that differ in it alone step alike, to states
that differ in it alone (10_state.md section 7, 40_sys.md RCL; the spec's decision D33). -/
def Obligations.ReservationIsUnobservable : Prop :=
  ∀ (s : State) (v : Option Nat),
    (∀ t, step s = .next t → ∃ w, step { s with resv := v } = .next { t with resv := w }) ∧
    (∀ f, step s = .fault f → step { s with resv := v } = .fault f) ∧
    (∀ r, step s = .refused r → step { s with resv := v } = .refused r)

/-! ## Memory -/

/-- A word written is the word read back, and a word read at another aligned address is what it was
(20_memory.md section 3; the spec's decisions D4, D6, D25). -/
def Obligations.WordReadsBackAfterWrite : Prop :=
  ∀ (s t : State) (a v : Word), memWrite s a v = .ok t →
    memRead t a = .ok v ∧ ∀ b, b ≠ a → memRead t b = memRead s b

/-- The order of the checks of a word access: alignment, text region, `MemMap`, and for a read the bytes
that hold no value; an access that passes them reads the four bytes, the lowest address the low byte
(20_memory.md section 3, R44 and R45, with the spec's decisions D4, D6, D25, D38). -/
def Obligations.WordAccessChecksInOrder : Prop :=
  ∀ (s : State) (a v : Word),
    (a.toNat % 4 ≠ 0 →
      memRead s a = .error (.fault (.misalignedAccess a)) ∧
      memWrite s a v = .error (.fault (.misalignedAccess a))) ∧
    (a.toNat % 4 = 0 → (∃ x ∈ wordAddrs a, inText s.text x = true) →
      memRead s a = .error (.refuse .textAccess) ∧ memWrite s a v = .error (.refuse .textAccess)) ∧
    (a.toNat % 4 = 0 → (∀ x ∈ wordAddrs a, inText s.text x = false) →
      (∃ x ∈ wordAddrs a, inMemMap s.memMap x = false) →
      memRead s a = .error (.fault (.accessFault a)) ∧
      memWrite s a v = .error (.fault (.accessFault a))) ∧
    (accessible s a →
      ((∃ k, k < 4 ∧ memByte s.mem (a.toNat + k) = none) →
        memRead s a = .error (.fault (.unwrittenRead a))) ∧
      (wordAt s.mem a v → memRead s a = .ok v) ∧
      ∃ t, memWrite s a v = .ok t ∧ stores a v s t)

/-- The operand forms: a `v` operand is its field's number, never sign-extended; an `ri1` operand is the
register or the immediate; an address is base or zero plus offset or zero modulo 2^32 (30_encoding.md
section 3; the spec's decisions D7, D8, D10). -/
def Obligations.OperandsHaveTheirValues : Prop :=
  ∀ (s : State) (r : Reg) (i : Word) (v : Val),
    (valOf v).toNat = v.toNat ∧
    srcOf s (.reg r) = s.reg r ∧ srcOf s (.imm i) = i ∧
    vrOf s (.reg r) = s.reg r ∧ (vrOf s (.val v)).toNat = v.toNat ∧
    eaOf s ⟨none, none⟩ = 0 ∧ eaOf s ⟨some r, none⟩ = s.reg r ∧ eaOf s ⟨none, some i⟩ = i ∧
    (eaOf s ⟨some r, some i⟩).toNat = ((s.reg r).toNat + i.toNat) % 2 ^ 32

/-! ## SYS unit -/

/-- NOP advances `pc` by 2 and changes nothing else; it is the selector of all 1-bits and has no argument
parcel (30_encoding.md section 5, 40_sys.md NOP). That it is NOP whatever the record's other fields are
is read from section 5, against the checks of section 4 (log entry 13, DEDUCED). -/
def Obligations.NopOnlyAdvances : Prop :=
  (∀ r : Record, r.sel = 0x7FFFF → decode r = .ok .nop ∧ r.hasArg = false) ∧
    ∀ s : State, ∃ t, exec .nop s = .next t ∧ onlyGoesTo (s.pc + 2) s t

/-- SEV, PFC, FLC, BRD, BWR and BAR complete in every state and change `pc` only (40_sys.md; the spec's
decisions D31, D33, D34). -/
def Obligations.HintsAndBarriersOnlyAdvance : Prop :=
  ∀ s : State,
    (∀ v, ∃ t, exec (.sev v) s = .next t ∧ onlyGoesTo (s.pc + 2) s t) ∧
    (∀ adr, ∃ t, exec (.pfc adr) s = .next t ∧ onlyGoesTo (nextAddr s.pc (adrArg adr)) s t) ∧
    (∃ t, exec .flc s = .next t ∧ onlyGoesTo (s.pc + 2) s t) ∧
    (∃ t, exec .brd s = .next t ∧ onlyGoesTo (s.pc + 2) s t) ∧
    (∃ t, exec .bwr s = .next t ∧ onlyGoesTo (s.pc + 2) s t) ∧
    (∃ t, exec .bar s = .next t ∧ onlyGoesTo (s.pc + 2) s t)

/-- HLT, STI and CLI without an address: the mask they leave, HLT's halt, and nothing else changed but
`pc`. HLT disables the interrupts its operand names, STI enables them or all, CLI disables them or all
(40_sys.md; the spec's decisions D9, D28, D29). -/
def Obligations.MaskInstructionsChangeTheMask : Prop :=
  ∀ (s : State) (m : Option RI),
    (∃ t, exec (.hlt m ⟨none, none⟩) s = .next t ∧ t.halted = true ∧
      t.imask = (match m with | some src => s.imask &&& ~~~(srcOf s src) | none => s.imask) ∧
      onlyGoesTo (nextAddr s.pc (optArg m)) s { t with halted := s.halted, imask := s.imask }) ∧
    (∃ t, exec (.sti m ⟨none, none⟩) s = .next t ∧
      t.imask = (match m with | some src => s.imask ||| srcOf s src | none => BitVec.allOnes 32) ∧
      onlyGoesTo (nextAddr s.pc (optArg m)) s { t with imask := s.imask }) ∧
    (∃ t, exec (.cli m ⟨none, none⟩) s = .next t ∧
      t.imask = (match m with | some src => s.imask &&& ~~~(srcOf s src) | none => 0) ∧
      onlyGoesTo (nextAddr s.pc (optArg m)) s { t with imask := s.imask })

/-- HLT, STI and CLI with an address whose offset and mask do not both ask for the argument parcel: where
the word at the address is accessible, the mask before the change is stored there, every other byte is
kept, and the rest is as without the address (40_sys.md; the spec's decisions D7, D8, D28, D29). -/
def Obligations.MaskInstructionsSaveTheOldMask : Prop :=
  ∀ (s : State) (m : Option RI) (adr : Adr),
    adrPresent adr = true → twoArgs m adr = false → accessible s (eaOf s adr) →
    ∀ p ∈ [(Instr.hlt m adr, true, match m with
              | some src => s.imask &&& ~~~(srcOf s src) | none => s.imask),
           (Instr.sti m adr, s.halted, match m with
              | some src => s.imask ||| srcOf s src | none => BitVec.allOnes 32),
           (Instr.cli m adr, s.halted, match m with
              | some src => s.imask &&& ~~~(srcOf s src) | none => 0)],
      ∃ t, exec p.1 s = .next t ∧ t.halted = p.2.1 ∧ t.imask = p.2.2 ∧
        stores (eaOf s adr) s.imask s t ∧
        onlyGoesTo (nextAddr s.pc (takesArg p.1)) s
          { t with halted := s.halted, imask := s.imask, mem := s.mem }

/-- HLT, STI and CLI stop with nothing written where the save stops, and are ill formed where mask and
offset both ask for the argument parcel (40_sys.md, 30_encoding.md section 4; the spec's decisions D7,
D28). -/
def Obligations.MaskInstructionsStop : Prop :=
  ∀ (s : State) (m : Option RI) (adr : Adr),
    ∀ i ∈ [Instr.hlt m adr, Instr.sti m adr, Instr.cli m adr],
      (twoArgs m adr = true → exec i s = .refused (.illFormed .oneArg)) ∧
      (twoArgs m adr = false → adrPresent adr = true → ∀ e,
        memWrite s (eaOf s adr) s.imask = .error e → exec i s = stopWith e s)

/-- INT makes its interrupt pending and changes nothing else but `pc`, where the number has a line; a
number from 32 up is refused (40_sys.md; the spec's decision D28). -/
def Obligations.IntMakesPending : Prop :=
  ∀ (s : State) (n : VR),
    ((vrOf s n).toNat < 32 → ∃ t, exec (.int n) s = .next t ∧
      (∀ k, t.ipend.getLsbD k = (s.ipend.getLsbD k || k == (vrOf s n).toNat)) ∧
      onlyGoesTo (s.pc + 2) s { t with ipend := s.ipend }) ∧
    (32 ≤ (vrOf s n).toNat → exec (.int n) s = .refused (.irqNumber (vrOf s n)))

/-- RST ends the run with the outcome Reset, reboot when its operand is not zero; WFE ends it stuck.
Neither writes anything else, `pc` included, and no step follows (40_sys.md; the spec's decisions D29,
D34; the outcome is held in State, log entry 10). -/
def Obligations.RstAndWfeEndTheRun : Prop :=
  ∀ s : State,
    (∀ n, ∃ t, exec (.rst n) s = .next t ∧
      t.outcome = some (.reset (decide ((vrOf s n).toNat ≠ 0))) ∧
      onlyGoesTo s.pc s { t with outcome := s.outcome } ∧
      step t = .fault (.ended (.reset (decide ((vrOf s n).toNat ≠ 0))))) ∧
    (∀ v, ∃ t, exec (.wfe v) s = .next t ∧ t.outcome = some .stuck ∧
      onlyGoesTo s.pc s { t with outcome := s.outcome } ∧ step t = .fault (.ended .stuck))

/-- RCL reserves the cache line its address is in and changes nothing else but `pc`; the address is not
accessed (40_sys.md; the spec's decision D33; CACHELINE is free, log entry 7). -/
def Obligations.RclReservesTheLine : Prop :=
  ∀ (s : State) (adr : Adr), ∃ t line, exec (.rcl adr) s = .next t ∧ t.resv = some line ∧
    line * Config.cacheline ≤ (eaOf s adr).toNat ∧
    (eaOf s adr).toNat < (line + 1) * Config.cacheline ∧
    onlyGoesTo (nextAddr s.pc (adrArg adr)) s { t with resv := s.resv }

/-- RPC writes its register with a word the spec does not determine (the free value, log entry 5) and
changes nothing else but `pc` (40_sys.md; the spec's decision D35). -/
def Obligations.RpcWritesOneRegister : Prop :=
  ∀ (s : State) (v : Val) (d : Reg), ∃ t, exec (.rpc v d) s = .next t ∧ t.draws = s.draws + 1 ∧
    onlyWrites d (Config.draw s.draws) false s { t with draws := s.draws }

/-- STX stores a word the spec does not determine at its address (the free value, log entry 5), where the
word is accessible; every other byte and everything else but `pc` is kept; it stops as the store does
(40_sys.md; the spec's decision D35). -/
def Obligations.StxStoresOneWord : Prop :=
  ∀ (s : State) (v : Val) (adr : Adr),
    (accessible s (eaOf s adr) → ∃ t, exec (.stx v adr) s = .next t ∧
      stores (eaOf s adr) (Config.draw s.draws) s t ∧ t.draws = s.draws + 1 ∧
      onlyGoesTo (nextAddr s.pc (adrArg adr)) s { t with draws := s.draws, mem := s.mem }) ∧
    (∀ e, memWrite s (eaOf s adr) s.drawn = .error e → exec (.stx v adr) s = stopWith e s)

/-! ## ALU unit -/

/-- NOT, AND, IOR and XOR, bit by bit, with the rows that select them; only the destination and `pc`
change, and R0 as destination discards the result (41_alu.md; the selector words are the spec's decision
D23 over provisional numbers, log entry 19). -/
def Obligations.LogicalResultsBitByBit : Prop :=
  ∀ (s : State) (src : RI) (d : Reg),
    ∀ p ∈ [(Instr.not src d, (0x08000 : BitVec 19), fun _ b => !b),
           (Instr.and src d, 0x08800, fun a b => a && b),
           (Instr.ior src d, 0x08C00, fun a b => a || b),
           (Instr.xor src d, 0x09000, fun a b => a ^^ b)],
      (encode p.1).sel = p.2.1 ∧
      ∃ t v, exec p.1 s = .next t ∧ onlyWrites d v (srcArg src) s t ∧
        ∀ k, k < 32 → v.getLsbD k = p.2.2 ((s.reg d).getLsbD k) ((srcOf s src).getLsbD k)

/-- NEG, ADD and SUB (`r2 - ri1`), INC and DEC as integers modulo 2^32, with the rows that select them;
no flag is written, only the destination and `pc` change (41_alu.md; the selector words are the spec's
decision D23 over provisional numbers, log entry 19). -/
def Obligations.ArithmeticResultsWrap : Prop :=
  ∀ (s : State) (src : RI) (d : Reg),
    ∀ p ∈ [(Instr.neg src d, (0x08400 : BitVec 19), -((srcOf s src).toNat : Int)),
           (Instr.inc d, 0x09400, ((s.reg d).toNat : Int) + 1),
           (Instr.dec d, 0x09800, ((s.reg d).toNat : Int) - 1),
           (Instr.add src d, 0x09C00, ((s.reg d).toNat : Int) + (srcOf s src).toNat),
           (Instr.sub src d, 0x0A400, ((s.reg d).toNat : Int) - (srcOf s src).toNat)],
      (encode p.1).sel = p.2.1 ∧
      ∃ t v, exec p.1 s = .next t ∧ onlyWrites d v (takesArg p.1) s t ∧
        (v.toNat : Int) = p.2.2 % 2 ^ 32

/-- ADC and SBB: the sum and the difference modulo 2^32, CF the carry and the borrow, the other flags and
everything else but the destination and `pc` kept; the old CF is no input (41_alu.md; the spec's
decision D14). -/
def Obligations.AdcAndSbbStoreTheCarry : Prop :=
  ∀ (s : State) (src : RI) (d : Reg),
    (∃ t v, exec (.adc src d) s = .next t ∧
      v.toNat + 2 ^ 32 * t.flags.cf.toNat = (s.reg d).toNat + (srcOf s src).toNat ∧
      t.flags = { s.flags with cf := t.flags.cf } ∧
      onlyWrites d v (srcArg src) s { t with flags := s.flags }) ∧
    (∃ t v, exec (.sbb src d) s = .next t ∧
      (v.toNat : Int) - 2 ^ 32 * t.flags.cf.toNat = (s.reg d).toNat - (srcOf s src).toNat ∧
      t.flags = { s.flags with cf := t.flags.cf } ∧
      onlyWrites d v (srcArg src) s { t with flags := s.flags })

/-- CMP sets the flags of `r2 - ri1` and changes nothing else but `pc`: ZF when the operands are equal, CF
when `r2` is below as unsigned, OF when the signed difference does not fit, SF the sign of the 32-bit
difference (41_alu.md; the spec's decision D13). -/
def Obligations.CmpSetsTheFlags : Prop :=
  ∀ (s : State) (src : RI) (r : Reg), ∃ t, exec (.cmp src r) s = .next t ∧
    (t.flags.zf = true ↔ s.reg r = srcOf s src) ∧
    (t.flags.cf = true ↔ (s.reg r).toNat < (srcOf s src).toNat) ∧
    (t.flags.ovf = true ↔ ¬ (-2 ^ 31 ≤ (s.reg r).toInt - (srcOf s src).toInt ∧
      (s.reg r).toInt - (srcOf s src).toInt < 2 ^ 31)) ∧
    (t.flags.sf = true ↔ (s.reg r - srcOf s src).toInt < 0) ∧
    onlyGoesTo (nextAddr s.pc (srcArg src)) s { t with flags := s.flags }

/-- After `CMP b, a` each of the thirteen branches is taken exactly when its relation holds of `a` and `b`,
to its absolute address, and changes nothing but `pc`: the ordered ones signed, BCF and BNC unsigned, BOF
and BNO by whether `a - b` fits as a signed difference, BSF and BNS by bit 31 of `a - b` (46_flow.md
section 1, 41_alu.md CMP; the spec's decisions D13, D24). -/
def Obligations.CmpThenBranchCompares : Prop :=
  ∀ (s t : State) (src : RI) (r : Reg) (adr : Adr), exec (.cmp src r) s = .next t →
    ∀ p ∈ [(Instr.bzf adr, decide (s.reg r = srcOf s src)),
           (Instr.beq adr, decide (s.reg r = srcOf s src)),
           (Instr.bne adr, decide (s.reg r ≠ srcOf s src)),
           (Instr.blt adr, decide ((s.reg r).toInt < (srcOf s src).toInt)),
           (Instr.ble adr, decide ((s.reg r).toInt ≤ (srcOf s src).toInt)),
           (Instr.bgt adr, decide ((srcOf s src).toInt < (s.reg r).toInt)),
           (Instr.bge adr, decide ((srcOf s src).toInt ≤ (s.reg r).toInt)),
           (Instr.bcf adr, decide ((s.reg r).toNat < (srcOf s src).toNat)),
           (Instr.bnc adr, decide ((srcOf s src).toNat ≤ (s.reg r).toNat)),
           (Instr.bof adr, !decide (-2 ^ 31 ≤ (s.reg r).toInt - (srcOf s src).toInt ∧
             (s.reg r).toInt - (srcOf s src).toInt < 2 ^ 31)),
           (Instr.bno adr, decide (-2 ^ 31 ≤ (s.reg r).toInt - (srcOf s src).toInt ∧
             (s.reg r).toInt - (srcOf s src).toInt < 2 ^ 31)),
           (Instr.bsf adr, (s.reg r - srcOf s src).getLsbD 31),
           (Instr.bns adr, !(s.reg r - srcOf s src).getLsbD 31)],
      ∃ u, exec p.1 t = .next u ∧
        onlyGoesTo (if p.2 then eaOf s adr else nextAddr t.pc (adrArg adr)) t u

/-- ZEX and SEX from `w` = EXT_SRC_BITS bits: the low `w` bits, as a natural number and as a two's
complement one; only the destination and `pc` change (41_alu.md; the width is OPEN, the spec's decision
D15: it is free here, log entry 6). -/
def Obligations.ZexAndSexExtend : Prop :=
  ∀ (s : State) (src : RI) (d : Reg),
    1 ≤ Config.extSrcBits ∧ Config.extSrcBits ≤ 32 ∧
    (∃ t v, exec (.zex src d) s = .next t ∧ onlyWrites d v (srcArg src) s t ∧
      v.toNat = (srcOf s src).toNat % 2 ^ Config.extSrcBits) ∧
    (∃ t v, exec (.sex src d) s = .next t ∧ onlyWrites d v (srcArg src) s t ∧
      v.toInt = ((srcOf s src).toNat : Int).bmod (2 ^ Config.extSrcBits))

/-! ## MULTI unit -/

/-- MUL keeps the low word of the product, MAD the low word of the product plus the immediate, with the
rows that select them; a MAD record without the immediate is ill formed (30_encoding.md section 4; the
spec's decision D7); only the destination and `pc` change (42_multi.md; the selector words are the spec's
decision D23 over provisional numbers, log entry 19). -/
def Obligations.MulAndMadKeepLowWord : Prop :=
  ∀ (s : State) (d r : Reg),
    (∀ src, (encode (.mul src d)).sel = 0x10000 ∧ ∃ t v, exec (.mul src d) s = .next t ∧
      onlyWrites d v (srcArg src) s t ∧
      v.toNat = (s.reg d).toNat * (srcOf s src).toNat % 2 ^ 32) ∧
    (∀ rec : Record, rec.sel = 0x11800 → rec.imm = false → decode rec = .error (.illFormed .imm)) ∧
    (∀ i, (encode (.mad i r d)).sel = 0x11800 ∧ (encode (.mad i r d)).imm = true ∧
      ∃ t v, exec (.mad i r d) s = .next t ∧ onlyWrites d v true s t ∧
      v.toNat = ((s.reg r).toNat * (s.reg d).toNat + i.toNat) % 2 ^ 32)

/-- MLH keeps bits 63:32 of the exact signed product; only the destination and `pc` change (42_multi.md;
the spec's decision D16). -/
def Obligations.MlhKeepsHighWord : Prop :=
  ∀ (s : State) (src : RI) (d : Reg), ∃ t v, exec (.mlh src d) s = .next t ∧
    onlyWrites d v (srcArg src) s t ∧
    v.toInt = (s.reg d).toInt * (srcOf s src).toInt / 2 ^ 32

/-- Where the divisor is not 0 and the quotient fits, DIV and REM complete: the quotient is rounded toward
zero, `quotient * divisor + remainder` is the dividend, the remainder is smaller than the divisor and
has the dividend's sign; only the destination and `pc` change (42_multi.md; the spec's decisions D16,
D17). -/
def Obligations.DivAndRemPairUp : Prop :=
  ∀ (s : State) (src : RI) (d : Reg),
    (srcOf s src).toInt ≠ 0 → ¬ ((s.reg d).toInt = -2 ^ 31 ∧ (srcOf s src).toInt = -1) →
    ∃ t u q r, exec (.div src d) s = .next t ∧ onlyWrites d q (srcArg src) s t ∧
      exec (.rem src d) s = .next u ∧ onlyWrites d r (srcArg src) s u ∧
      q.toInt * (srcOf s src).toInt + r.toInt = (s.reg d).toInt ∧
      r.toInt.natAbs < (srcOf s src).toInt.natAbs ∧
      (0 ≤ (s.reg d).toInt → 0 ≤ r.toInt) ∧ ((s.reg d).toInt ≤ 0 → r.toInt ≤ 0)

/-- DIV and REM fault on a zero divisor and on -2^31 by -1, with nothing written (42_multi.md; the spec's
decision D17). -/
def Obligations.DivAndRemFault : Prop :=
  ∀ (s : State) (src : RI) (d : Reg), ∀ i ∈ [Instr.div src d, Instr.rem src d],
    (srcOf s src = 0 → exec i s = .fault .divideByZero) ∧
    ((s.reg d).toInt = -2 ^ 31 → (srcOf s src).toInt = -1 → exec i s = .fault .divideOverflow)

/-- IRP1, IRP2, SWP, BEC, BDC, HSH and HUN write the value of their uninterpreted function of the operand
and change nothing else but `pc` (42_multi.md, 44_bit.md; the spec's decision D27; the functions are
free, log entries 8 and 9). -/
def Obligations.UninterpretedResults : Prop :=
  ∀ (s : State) (src : RI) (d : Reg),
    ∀ p ∈ [(Instr.irp1 src d, Config.irp1 (srcOf s src)), (Instr.irp2 d, Config.irp2 (s.reg d)),
           (Instr.swp false src d, Config.swp8 (srcOf s src)),
           (Instr.swp true src d, Config.swp16 (srcOf s src)),
           (Instr.bec src d, Config.bcdEncode (srcOf s src)),
           (Instr.bdc src d, Config.bcdDecode (srcOf s src)),
           (Instr.hsh src d, Config.tmhash32 (srcOf s src)),
           (Instr.hun src d, Config.tmunhash32 (srcOf s src))],
      ∃ t, exec p.1 s = .next t ∧ onlyWrites d p.2 (takesArg p.1) s t

/-- HUN undoes HSH, and HSH undoes HUN: hashing a register and unhashing the result gives the register
back (44_bit.md; the spec's decision D27 and its sentence "unhash" implies `tmunhash32(tmhash32(a)) = a`;
log entry 9). -/
def Obligations.UnhashUndoesHash : Prop :=
  ∀ (s t u : State) (r d e : Reg), d ≠ 0 → e ≠ 0 →
    ((exec (.hsh (.reg r) d) s = .next t → exec (.hun (.reg d) e) t = .next u → u.reg e = s.reg r) ∧
      (exec (.hun (.reg r) d) s = .next t → exec (.hsh (.reg d) e) t = .next u → u.reg e = s.reg r))

/-! ## SHIFT unit -/

/-- SHL, SHR and SRA by a count of 0 to 31 as arithmetic, with the rows that select them: SHL
multiplies, SHR divides the natural number, SRA the two's complement one (rounding down); only the
destination and `pc` change (43_shift.md; that SHR and SRA shift right is the spec's reading C4, the
range of the count its decision D18). -/
def Obligations.ShiftsAsArithmetic : Prop :=
  ∀ (s : State) (v : Val) (r d : Reg), v.toNat ≤ 31 →
    ∀ p ∈ [(Instr.shl v r d, (0x18000 : BitVec 19), ((s.reg r).toNat : Int) * 2 ^ v.toNat),
           (Instr.shr v r d, 0x18100, ((s.reg r).toNat : Int) / 2 ^ v.toNat),
           (Instr.sra v r d, 0x18180, (s.reg r).toInt / 2 ^ v.toNat)],
      (encode p.1).sel &&& 0x7FF80 = p.2.1 ∧ (encode p.1).val = v ∧
      ∃ t w, exec p.1 s = .next t ∧ onlyWrites d w false s t ∧ (w.toNat : Int) = p.2.2 % 2 ^ 32

/-- ROL and ROR by a count of 0 to 31, with the rows that select them: the bits that leave at one end
enter at the other, a count of 0 copies, and ROR by `v` of 1 to 31 is ROL by `32 - v`; only the
destination and `pc` change, no flag takes part (R163, R164). -/
def Obligations.RotatesBringTheBitsBack : Prop :=
  ∀ (s : State) (v : Val) (r d : Reg), v.toNat ≤ 31 →
    (∀ p ∈ [(Instr.rol v r d, (0x18200 : BitVec 19), fun k => (k + 32 - v.toNat) % 32),
            (Instr.ror v r d, 0x18300, fun k => (k + v.toNat) % 32)],
      (encode p.1).sel &&& 0x7FF80 = p.2.1 ∧ (encode p.1).val = v ∧
      ∃ t w, exec p.1 s = .next t ∧ onlyWrites d w false s t ∧
        ∀ k, k < 32 → w.getLsbD k = (s.reg r).getLsbD (p.2.2 k)) ∧
    ∀ w : Val, 1 ≤ v.toNat → v.toNat + w.toNat = 32 → exec (.ror v r d) s = exec (.rol w r d) s

/-- The fused forms by a count of 0 to 31, every intermediate truncated to 32 bits and every right shift
logical: MSL, MSR, SLA, SLR, SAL, SAR, SLM, SRM, SML and SMR; the result goes to `r2`, and only it and
`pc` change (42_multi.md, 43_shift.md; the spec's decisions D19, D20, D21, D41). -/
def Obligations.FusedShiftsTruncate : Prop :=
  ∀ (s : State) (v : Val) (src : RI) (r d : Reg), v.toNat ≤ 31 →
    let a := (srcOf s src).toNat
    let x := (s.reg r).toNat
    let y := (s.reg d).toNat
    let n := 2 ^ v.toNat
    ∀ p ∈ [(Instr.msl v src d, y * a * n), (Instr.msr v r d, x * y % 2 ^ 32 / n),
           (Instr.sla v src d, y * n + a), (Instr.slr v src d, y / n + a),
           (Instr.sal v r d, (x + y) * n), (Instr.sar v r d, (x + y) % 2 ^ 32 / n),
           (Instr.slm v src d, a * n * y), (Instr.srm v src d, a / n * y),
           (Instr.sml v src d, y * a * n), (Instr.smr v src d, y * a % 2 ^ 32 / n)],
      ∃ t w, exec p.1 s = .next t ∧ onlyWrites d w (takesArg p.1) s t ∧ w.toNat = p.2 % 2 ^ 32

/-- A count above 31 is refused as IllFormed(WF_SHIFT), by the decoder and by the meaning, for every
instruction that has a count (43_shift.md R173; the spec's decision D18). -/
def Obligations.LargeCountsAreRefused : Prop :=
  ∀ (i : Instr) (v : Val) (s : State), shiftCount? i = some v → 31 < v.toNat →
    decode (encode i) = .error (.illFormed .shift) ∧ exec i s = .refused (.illFormed .shift)

/-! ## BIT unit -/

/-- CLZ, HAM and PAR: the leading zeros (32 for zero), the number of 1-bits, and its parity; only the
destination and `pc` change (44_bit.md; the spec's decision D26). -/
def Obligations.BitCounts : Prop :=
  ∀ (s : State) (src : RI) (d : Reg),
    (∃ t n, exec (.clz src d) s = .next t ∧ onlyWrites d (BitVec.ofNat 32 n) (srcArg src) s t ∧
      n ≤ 32 ∧ (∀ k, k < n → (srcOf s src).getLsbD (31 - k) = false) ∧
      (n < 32 → (srcOf s src).getLsbD (31 - n) = true)) ∧
    (∃ t, exec (.ham src d) s = .next t ∧ onlyWrites d
      (BitVec.ofNat 32 ((List.range 32).countP fun k => (srcOf s src).getLsbD k)) (srcArg src) s t) ∧
    (∃ t, exec (.par src d) s = .next t ∧ onlyWrites d
      (BitVec.ofNat 32 ((List.range 32).countP (fun k => (srcOf s src).getLsbD k) % 2))
      (srcArg src) s t)

/-! ## FLOW unit -/

/-- JMP goes to its absolute address, RET to LR; CSR goes to its address, computed before LR is written,
and leaves the sequentially next address in LR. Nothing else changes (46_flow.md; the spec's decision
D24). -/
def Obligations.JumpsCallsAndReturns : Prop :=
  ∀ (s : State) (adr : Adr),
    (∃ t, exec (.jmp adr) s = .next t ∧ onlyGoesTo (eaOf s adr) s t) ∧
    (∃ t, exec .ret s = .next t ∧ onlyGoesTo (s.reg lrReg) s t) ∧
    (∃ t, exec (.csr adr) s = .next t ∧ t.pc = eaOf s adr ∧
      onlyWrites lrReg (nextAddr s.pc (adrArg adr)) (adrArg adr) s
        { t with pc := nextAddr s.pc (adrArg adr) })

/-- Each branch goes to its absolute address when its condition on the flags holds and on otherwise, and
changes nothing but `pc` (46_flow.md; the spec's decisions D13, D24). -/
def Obligations.BranchesFollowTheFlags : Prop :=
  ∀ (s : State) (adr : Adr),
    ∀ p ∈ [(Instr.bzf adr, s.flags.zf), (.beq adr, s.flags.zf), (.bne adr, !s.flags.zf),
           (.blt adr, s.flags.sf != s.flags.ovf), (.ble adr, s.flags.zf || s.flags.sf != s.flags.ovf),
           (.bgt adr, !s.flags.zf && s.flags.sf == s.flags.ovf), (.bge adr, s.flags.sf == s.flags.ovf),
           (.bcf adr, s.flags.cf), (.bnc adr, !s.flags.cf),
           (.bof adr, s.flags.ovf), (.bno adr, !s.flags.ovf),
           (.bsf adr, s.flags.sf), (.bns adr, !s.flags.sf)],
      ∃ t, exec p.1 s = .next t ∧
        onlyGoesTo (if p.2 then eaOf s adr else nextAddr s.pc (adrArg adr)) s t

/-- A call returns: after CSR, whatever the callee does that leaves LR alone, RET goes to the address
after the CSR and its argument parcel (46_flow.md; the spec's decision D24). -/
def Obligations.ReturnFollowsTheCall : Prop :=
  ∀ (s t u v : State) (adr : Adr), exec (.csr adr) s = .next t →
    u.reg lrReg = t.reg lrReg → exec .ret u = .next v → v.pc = nextAddr s.pc (adrArg adr)

/-! ## XFER unit -/

/-- LDR: where the word at its address is accessible and holds `w`, the destination gets `w` and only it
and `pc` change; it stops as the read does, for R0 as destination too (47_xfer.md; the spec's decision
D25). -/
def Obligations.LdrLoadsTheWord : Prop :=
  ∀ (s : State) (adr : Adr) (d : Reg) (w : Word),
    (accessible s (eaOf s adr) → wordAt s.mem (eaOf s adr) w →
      ∃ t, exec (.ldr adr d) s = .next t ∧ onlyWrites d w (adrArg adr) s t) ∧
    (∀ e, memRead s (eaOf s adr) = .error e → exec (.ldr adr d) s = stopWith e s)

/-- STR: where the word at its address is accessible, it is stored there; every other byte and everything
else but `pc` is kept; it stops as the write does (47_xfer.md; the spec's decision D25). -/
def Obligations.StrStoresTheWord : Prop :=
  ∀ (s : State) (r : Reg) (adr : Adr),
    (accessible s (eaOf s adr) → ∃ t, exec (.str r adr) s = .next t ∧
      stores (eaOf s adr) (s.reg r) s t ∧
      onlyGoesTo (nextAddr s.pc (adrArg adr)) s { t with mem := s.mem }) ∧
    (∀ e, memWrite s (eaOf s adr) (s.reg r) = .error e → exec (.str r adr) s = stopWith e s)

/-- PSH: where the word below SP is accessible, the register (SP itself as it was) is stored there and SP
moves down by 4 modulo 2^32; every other byte and everything else but `pc` is kept; it stops as the
write does, SP unchanged (47_xfer.md; the spec's decision D25). -/
def Obligations.PshStoresBelowSp : Prop :=
  ∀ (s : State) (r : Reg),
    (accessible s (s.reg spReg - 4) → ∃ t, exec (.psh r) s = .next t ∧
      stores (s.reg spReg - 4) (s.reg r) s t ∧
      onlyWrites spReg (s.reg spReg - 4) false s { t with mem := s.mem }) ∧
    (∀ e, memWrite s (s.reg spReg - 4) (s.reg r) = .error e → exec (.psh r) s = stopWith e s)

/-- POP: where the word at SP is accessible and holds `w`, the register gets `w` and SP moves up by 4,
unless the register is SP, which is left at `w`; R0 discards the word; only these and `pc` change; it
stops as the read does (47_xfer.md; the spec's decision D25). -/
def Obligations.PopLoadsAtSp : Prop :=
  ∀ (s : State) (d : Reg) (w : Word),
    (accessible s (s.reg spReg) → wordAt s.mem (s.reg spReg) w →
      ∃ t, exec (.pop d) s = .next t ∧ holds d w t ∧
        (d ≠ spReg → t.reg spReg = s.reg spReg + 4) ∧ keepsRegsBut [d, spReg] s t ∧
        t.flags = s.flags ∧ keepsMem s t ∧ keepsControl s t ∧ t.draws = s.draws ∧ t.pc = s.pc + 2) ∧
    (∀ e, memRead s (s.reg spReg) = .error e → exec (.pop d) s = stopWith e s)

/-- A push and then a pop: the popped register gets the pushed value, and SP is where it was (47_xfer.md;
the spec's decision D25). -/
def Obligations.PopUndoesPsh : Prop :=
  ∀ (s t : State) (r d : Reg), exec (.psh r) s = .next t → d ≠ 0 → d ≠ spReg →
    ∃ u, exec (.pop d) t = .next u ∧ u.reg d = s.reg r ∧ u.reg spReg = s.reg spReg ∧
      keepsRegsBut [d] s u ∧ keepsMem t u

/-- The mask a CLI saved is put back by an LDR of the saved word and an STI of the register it was loaded
to (40_sys.md CLI and STI; the spec's decisions D25, D28). -/
def Obligations.SavedMaskIsRestored : Prop :=
  ∀ (s t u v : State) (a : Word) (d : Reg), d ≠ 0 →
    exec (.cli none ⟨none, some a⟩) s = .next t → exec (.ldr ⟨none, some a⟩ d) t = .next u →
    exec (.sti (some (.reg d)) ⟨none, none⟩) u = .next v → t.imask = 0 ∧ v.imask = s.imask

/-! ## Instructions without a meaning in the spec -/

/-- The instructions to which the spec gives no effect are refused in every state, each for the reason
the spec gives it: by its own name CRC, ECC, the ATOM unit, the frame, call, thread and return
instructions and the XFER ones without an operand list; LDX, IPG, PLK and IRP for theirs
(60_exceptions.md section 2; the spec's decisions D27, D33, D35). -/
def Obligations.UndefinedInstructionsAreRefused : Prop :=
  ∀ (s : State) (v : Val) (b : Bool) (r d : Reg) (adr : Adr) (src : RI),
    (∀ p ∈ [(Instr.crc b, "CRC"), (.ecc, "ECC"), (.ldl, "LDL"), (.stl, "STL"), (.btc, "BTC"),
           (.bts, "BTS"), (.xadd, "XADD"), (.xinc, "XINC"), (.xdec, "XDEC"), (.cas, "CAS"),
           (.jmr, "JMR"), (.beg, "BEG"), (.fin, "FIN"), (.mkf v, "MKF"), (.sys, "SYS"),
           (.thr, "THR"), (.thc v, "THC"), (.thw, "THW"), (.thy, "THY"), (.srt, "SRT"),
           (.thx, "THX"), (.irt, "IRT"), (.ckr, "CKR"), (.ckw, "CKW"), (.ckx, "CKX"),
           (.ldn, "LDN"), (.ldc v, "LDC"), (.stn, "STN"), (.stc v, "STC"), (.psm, "PSM"),
           (.pom, "POM"), (.ioc v, "IOC"), (.iop, "IOP"), (.ird, "IRD"), (.iwr, "IWR")],
      exec p.1 s = .refused (.notDefined p.2)) ∧
    exec (.ldx v r) s = .refused (.systemRegister v) ∧
    exec (.ipg adr) s = .refused .translation ∧ exec (.plk adr) s = .refused .translation ∧
    exec (.irp src d) s = .refused .reciprocal
end

