-- ==== Sys2Proof/Laws/Encode.lean ====
section
/-! SUPPORT. The fields of a record after each operand is put into it. -/

namespace Sys2Proof.Laws

open Sys2Proof.Machine

@[simp] theorem putR1_unit (r : Reg) (w : Record) : (putR1 r w).unit = w.unit := by
  rfl
@[simp] theorem putR1_op (r : Reg) (w : Record) : (putR1 r w).op = w.op := by
  rfl
@[simp] theorem putR1_imm (r : Reg) (w : Record) : (putR1 r w).imm = w.imm := by
  rfl
@[simp] theorem putR1_ndx (r : Reg) (w : Record) : (putR1 r w).ndx = w.ndx := by
  rfl
@[simp] theorem putR2_unit (r : Reg) (w : Record) : (putR2 r w).unit = w.unit := by
  rfl
@[simp] theorem putR2_op (r : Reg) (w : Record) : (putR2 r w).op = w.op := by
  rfl
@[simp] theorem putR2_imm (r : Reg) (w : Record) : (putR2 r w).imm = w.imm := by
  rfl
@[simp] theorem putR2_ndx (r : Reg) (w : Record) : (putR2 r w).ndx = w.ndx := by
  rfl
@[simp] theorem putArg_unit (i : Word) (w : Record) : (putArg i w).unit = w.unit := by
  rfl
@[simp] theorem putArg_op (i : Word) (w : Record) : (putArg i w).op = w.op := by
  rfl
@[simp] theorem putArg_imm (i : Word) (w : Record) : (putArg i w).imm = true := by
  rfl
@[simp] theorem putArg_ndx (i : Word) (w : Record) : (putArg i w).ndx = w.ndx := by
  rfl
@[simp] theorem putSrc_unit (src : RI) (w : Record) : (putSrc src w).unit = w.unit := by
  cases src <;> rfl
@[simp] theorem putSrc_op (src : RI) (w : Record) : (putSrc src w).op = w.op := by
  cases src <;> rfl
@[simp] theorem putSrc_imm (src : RI) (w : Record) : (putSrc src w).imm = (srcArg src || w.imm) := by
  cases src <;> rfl
@[simp] theorem putSrc_ndx (src : RI) (w : Record) : (putSrc src w).ndx = w.ndx := by
  cases src <;> rfl
@[simp] theorem putOpt_unit (m : Option RI) (w : Record) : (putOpt m w).unit = w.unit := by
  rcases m with _ | (_ | _) <;> rfl
@[simp] theorem putOpt_op (m : Option RI) (w : Record) : (putOpt m w).op = w.op := by
  rcases m with _ | (_ | _) <;> rfl
@[simp] theorem putOpt_imm (m : Option RI) (w : Record) : (putOpt m w).imm = (optArg m || w.imm) := by
  rcases m with _ | (_ | _) <;> rfl
@[simp] theorem putOpt_ndx (m : Option RI) (w : Record) : (putOpt m w).ndx = w.ndx := by
  rcases m with _ | (_ | _) <;> rfl
@[simp] theorem putVr_unit (n : VR) (w : Record) : (putVr n w).unit = w.unit := by
  cases n <;> rfl
@[simp] theorem putVr_op (n : VR) (w : Record) : (putVr n w).op = w.op := by
  cases n <;> rfl
@[simp] theorem putVr_imm (n : VR) (w : Record) : (putVr n w).imm = w.imm := by
  cases n <;> rfl
@[simp] theorem putVr_ndx (n : VR) (w : Record) : (putVr n w).ndx = w.ndx := by
  cases n <;> rfl
@[simp] theorem putFlag1_unit (b : Bool) (w : Record) : (putFlag1 b w).unit = w.unit := by
  rfl
@[simp] theorem putFlag1_op (b : Bool) (w : Record) : (putFlag1 b w).op = w.op := by
  rfl
@[simp] theorem putFlag1_imm (b : Bool) (w : Record) : (putFlag1 b w).imm = w.imm := by
  rfl
@[simp] theorem putFlag1_ndx (b : Bool) (w : Record) : (putFlag1 b w).ndx = w.ndx := by
  rfl
@[simp] theorem putAdr1_unit (a : Adr) (w : Record) : (putAdr1 a w).unit = w.unit := by
  rcases a with ⟨_ | _, _ | _⟩ <;> rfl
@[simp] theorem putAdr1_op (a : Adr) (w : Record) : (putAdr1 a w).op = w.op := by
  rcases a with ⟨_ | _, _ | _⟩ <;> rfl
@[simp] theorem putAdr1_imm (a : Adr) (w : Record) : (putAdr1 a w).imm = w.imm := by
  rcases a with ⟨_ | _, _ | _⟩ <;> rfl
@[simp] theorem putAdr1_ndx (a : Adr) (w : Record) : (putAdr1 a w).ndx = (adrArg a || w.ndx) := by
  rcases a with ⟨_ | _, _ | _⟩ <;> rfl
@[simp] theorem putAdr2_unit (a : Adr) (w : Record) : (putAdr2 a w).unit = w.unit := by
  rcases a with ⟨_ | _, _ | _⟩ <;> rfl
@[simp] theorem putAdr2_op (a : Adr) (w : Record) : (putAdr2 a w).op = w.op := by
  rcases a with ⟨_ | _, _ | _⟩ <;> rfl
@[simp] theorem putAdr2_imm (a : Adr) (w : Record) : (putAdr2 a w).imm = w.imm := by
  rcases a with ⟨_ | _, _ | _⟩ <;> rfl
@[simp] theorem putAdr2_ndx (a : Adr) (w : Record) : (putAdr2 a w).ndx = (adrArg a || w.ndx) := by
  rcases a with ⟨_ | _, _ | _⟩ <;> rfl
@[simp] theorem fieldsOf_unit (u : BitVec 4) (o : BitVec 5) (f : BitVec 3) (v : Val) :
    (fieldsOf u o f v).unit = u := rfl
@[simp] theorem fieldsOf_op (u : BitVec 4) (o : BitVec 5) (f : BitVec 3) (v : Val) :
    (fieldsOf u o f v).op = o := rfl
@[simp] theorem fieldsOf_imm (u : BitVec 4) (o : BitVec 5) (f : BitVec 3) (v : Val) :
    (fieldsOf u o f v).imm = false := rfl
@[simp] theorem fieldsOf_ndx (u : BitVec 4) (o : BitVec 5) (f : BitVec 3) (v : Val) :
    (fieldsOf u o f v).ndx = false := rfl

/-- The unit code is the top of the selector word (R75). -/
theorem sel_unit (r : Record) : r.sel.extractLsb' 15 4 = r.unit := by
  apply BitVec.eq_of_getLsbD_eq
  intro i hi
  simp only [Record.sel, BitVec.getLsbD_extractLsb', BitVec.getLsbD_append, BitVec.getLsbD_ofBool]
  simp only [hi, decide_true, Bool.true_and]
  rw [if_neg (by omega), if_neg (by omega), if_neg (by omega), if_neg (by omega), if_neg (by omega)]
  congr 1; omega

/-- A record of a named unit is not NOP's, so it has an argument parcel exactly when `IMM` or `NDX` is
set (R63, R76). -/
theorem hasArg_of_unit {r : Record} (h : r.unit ≠ 0xF) : r.hasArg = (r.imm || r.ndx) := by
  have : r.sel ≠ nopSel := fun e => h (by rw [← sel_unit, e]; decide)
  simp [Record.hasArg, this]

end Sys2Proof.Laws
end

