-- ==== Sys2Proof/Laws/Memory.lean ====
section
/-! SUPPORT. What the memory operations do: reading a byte after a write, the canonical form kept by
every write, and one lemma each for `memCheck`, `memRead` and `memWrite`. -/

namespace Sys2Proof.Machine

/-- A byte read after a write of a byte. -/
theorem memByte_putByte (m : Memory) (a x : Nat) (b : Byte) :
    memByte (putByte m a b) x = if x = a then some b else memByte m x := by
  induction m with
  | nil => simp only [putByte, memByte, eq_comm]
  | cons c m ih =>
    unfold putByte
    split
    · simp only [memByte, eq_comm]
    · split
      · next h =>
        subst h
        simp only [memByte, eq_comm]
        split <;> rfl
      · next h1 h2 =>
        simp only [memByte, ih]
        split
        · next h => rw [if_neg (by omega)]
        · rfl

/-- The entries of a memory after a write of a byte. -/
theorem mem_putByte {m : Memory} {a : Nat} {b : Byte} {c : Host.Cell} (h : c ∈ putByte m a b) :
    c = (a, b) ∨ c ∈ m := by
  induction m with
  | nil => simpa [putByte] using h
  | cons d m ih =>
    unfold putByte at h
    split at h
    · simpa using h
    · split at h
      · rcases List.mem_cons.1 h with h | h
        · exact .inl h
        · exact .inr (List.mem_cons_of_mem _ h)
      · rcases List.mem_cons.1 h with h | h
        · exact .inr (h ▸ List.mem_cons_self ..)
        · rcases ih h with h | h
          · exact .inl h
          · exact .inr (List.mem_cons_of_mem _ h)

/-- A write of a byte keeps the canonical form. -/
theorem putByte_wf {m : Memory} (hm : Memory.wf m) {a : Nat} (ha : a < Config.addressSpace) (b : Byte) :
    Memory.wf (putByte m a b) := by
  refine ⟨?_, fun c hc => ?_⟩
  · obtain ⟨hp, -⟩ := hm
    induction m with
    | nil => simp [putByte]
    | cons c m ih =>
      obtain ⟨hc, hp'⟩ := List.pairwise_cons.1 hp
      unfold putByte
      split
      · next h =>
        refine List.pairwise_cons.2 ⟨fun x hx => ?_, hp⟩
        rcases List.mem_cons.1 hx with rfl | hx
        · exact h
        · exact Nat.lt_trans h (hc x hx)
      · split
        · next h => subst h; exact List.pairwise_cons.2 ⟨hc, hp'⟩
        · next h1 h2 =>
          refine List.pairwise_cons.2 ⟨fun x hx => ?_, ih hp'⟩
          rcases mem_putByte hx with rfl | hx
          · show c.1 < a; omega
          · exact hc x hx
  · rcases mem_putByte hc with rfl | h
    · exact ha
    · exact hm.2 c h

/-- A word written below the end of the address space keeps the canonical form. -/
theorem putWord_wf {m : Memory} (hm : Memory.wf m) {a : Nat} (ha : a + 3 < Config.addressSpace)
    (v : Word) : Memory.wf (putWord m a v) := by
  unfold putWord
  exact putByte_wf (putByte_wf (putByte_wf (putByte_wf hm (by omega) _) (by omega) _) (by omega) _) ha _

/-- A byte read after a write of a word. -/
theorem memByte_putWord (m : Memory) (a : Nat) (v : Word) (x : Nat) :
    memByte (putWord m a v) x =
      if a ≤ x ∧ x < a + 4 then some (byteOfWord v (x - a)) else memByte m x := by
  unfold putWord
  simp only [memByte_putByte]
  by_cases hx : a ≤ x ∧ x < a + 4
  · rw [if_pos hx]
    have : x = a ∨ x = a + 1 ∨ x = a + 2 ∨ x = a + 3 := by omega
    rcases this with rfl | rfl | rfl | rfl <;> simp
  · rw [if_neg hx, if_neg (by omega), if_neg (by omega), if_neg (by omega), if_neg (by omega)]

/-- The entries of a memory after a write of a word. -/
theorem mem_putWord {m : Memory} {a : Nat} {v : Word} {c : Host.Cell} (h : c ∈ putWord m a v) :
    (a ≤ c.1 ∧ c.1 < a + 4) ∨ c ∈ m := by
  unfold putWord at h
  rcases mem_putByte h with rfl | h
  · left; simp
  rcases mem_putByte h with rfl | h
  · left; simp
  rcases mem_putByte h with rfl | h
  · left; simp
  rcases mem_putByte h with rfl | h
  · left; simp
  · exact .inr h

/-- The bytes of a word put together again. -/
theorem wordOfBytes_byteOfWord (v : Word) :
    wordOfBytes (byteOfWord v 0) (byteOfWord v 1) (byteOfWord v 2) (byteOfWord v 3) = v := by
  apply BitVec.eq_of_getLsbD_eq
  intro i hi
  simp only [wordOfBytes, byteOfWord, BitVec.getLsbD_append, BitVec.getLsbD_extractLsb']
  split
  · simp only [*, decide_true, Bool.true_and]; congr 1; omega
  · split
    · simp only [show i - 8 < 8 by omega, decide_true, Bool.true_and]; congr 1; omega
    · split
      · simp only [show i - 8 - 8 < 8 by omega, decide_true, Bool.true_and]; congr 1; omega
      · simp only [show i - 8 - 8 - 8 < 8 by omega, decide_true, Bool.true_and]; congr 1; omega

/-- A word access that passes the shared checks: aligned, outside the text region, inside `MemMap`. -/
theorem memCheck_eq_none {s : State} {a : Word} :
    memCheck s a = none ↔
      a.toNat % 4 = 0 ∧ (∀ x ∈ wordAddrs a, inText s.text x = false) ∧
        ∀ x ∈ wordAddrs a, inMemMap s.memMap x = true := by
  unfold memCheck
  split
  · simp_all
  · split
    · simp_all
    · split <;> simp_all

/-- An aligned word lies below the end of the address space (R58). -/
theorem aligned_lt {a : Word} (h : a.toNat % 4 = 0) : a.toNat + 3 < Config.addressSpace := by
  have := a.isLt
  simp only [Config.addressSpace] at *
  omega

/-- Everything MemWrite can do when it goes on. -/
theorem memWrite_eq_ok {s t : State} {a v : Word} :
    memWrite s a v = .ok t ↔ memCheck s a = none ∧ t = { s with mem := putWord s.mem a.toNat v } := by
  unfold memWrite
  split
  · simp_all
  · simp_all [eq_comm]

/-- Everything MemWrite can do when it stops. -/
theorem memWrite_eq_error {s : State} {a v : Word} {e : Stop} :
    memWrite s a v = .error e ↔ memCheck s a = some e := by
  unfold memWrite
  split <;> simp_all

/-- Everything MemRead can do when it goes on: the four bytes hold values, and they are the word's. -/
theorem memRead_eq_ok {s : State} {a w : Word} :
    memRead s a = .ok w ↔ memCheck s a = none ∧ ∃ b0 b1 b2 b3,
      memByte s.mem a.toNat = some b0 ∧ memByte s.mem (a.toNat + 1) = some b1 ∧
      memByte s.mem (a.toNat + 2) = some b2 ∧ memByte s.mem (a.toNat + 3) = some b3 ∧
      w = wordOfBytes b0 b1 b2 b3 := by
  unfold memRead
  split
  · simp_all
  · next hc =>
    split
    · next b0 b1 b2 b3 h0 h1 h2 h3 =>
      simp only [hc, h0, h1, h2, h3, Except.ok.injEq, Option.some.injEq, true_and]
      constructor
      · rintro rfl; exact ⟨_, _, _, _, rfl, rfl, rfl, rfl, rfl⟩
      · rintro ⟨_, _, _, _, rfl, rfl, rfl, rfl, rfl⟩; rfl
    · next h =>
      simp only [reduceCtorEq, false_iff, not_and, not_exists]
      rintro - b0 b1 b2 b3 h0 h1 h2 h3
      exact absurd h3 (h b0 b1 b2 b3 h0 h1 h2)

/-- MemWrite keeps the canonical form. -/
theorem memWrite_wf {s t : State} {a v : Word} (h : memWrite s a v = .ok t) (hm : Memory.wf s.mem) :
    Memory.wf t.mem := by
  obtain ⟨hc, rfl⟩ := memWrite_eq_ok.1 h
  exact putWord_wf hm (aligned_lt (memCheck_eq_none.1 hc).1) v

/-- The memory after reset has the canonical form. -/
theorem reset_mem_wf : Memory.wf State.reset.mem := ⟨.nil, by simp [State.reset]⟩

end Sys2Proof.Machine
end

