-- ==== Sys2Proof/Laws/State.lean ====
section
/-! SUPPORT. The fields and the registers of a state after each update: one lemma per field per update,
so that no proof unfolds a record update. -/

namespace Sys2Proof.Machine

/-! ## `setPc` -/

@[simp] theorem State.setPc_regs (s : State) (t : Word) : (s.setPc t).regs = s.regs := rfl
@[simp] theorem State.setPc_pc (s : State) (t : Word) : (s.setPc t).pc = t := rfl
@[simp] theorem State.setPc_flags (s : State) (t : Word) : (s.setPc t).flags = s.flags := rfl
@[simp] theorem State.setPc_imask (s : State) (t : Word) : (s.setPc t).imask = s.imask := rfl
@[simp] theorem State.setPc_ipend (s : State) (t : Word) : (s.setPc t).ipend = s.ipend := rfl
@[simp] theorem State.setPc_halted (s : State) (t : Word) : (s.setPc t).halted = s.halted := rfl
@[simp] theorem State.setPc_mode (s : State) (t : Word) : (s.setPc t).mode = s.mode := rfl
@[simp] theorem State.setPc_resv (s : State) (t : Word) : (s.setPc t).resv = s.resv := rfl
@[simp] theorem State.setPc_mem (s : State) (t : Word) : (s.setPc t).mem = s.mem := rfl
@[simp] theorem State.setPc_text (s : State) (t : Word) : (s.setPc t).text = s.text := rfl
@[simp] theorem State.setPc_memMap (s : State) (t : Word) : (s.setPc t).memMap = s.memMap := rfl
@[simp] theorem State.setPc_outcome (s : State) (t : Word) : (s.setPc t).outcome = s.outcome := rfl
@[simp] theorem State.setPc_draws (s : State) (t : Word) : (s.setPc t).draws = s.draws := rfl

/-! ## `setCf` -/

@[simp] theorem State.setCf_regs (s : State) (b : Bool) : (s.setCf b).regs = s.regs := rfl
@[simp] theorem State.setCf_pc (s : State) (b : Bool) : (s.setCf b).pc = s.pc := rfl
@[simp] theorem State.setCf_flags (s : State) (b : Bool) : (s.setCf b).flags = { s.flags with cf := b } := rfl
@[simp] theorem State.setCf_imask (s : State) (b : Bool) : (s.setCf b).imask = s.imask := rfl
@[simp] theorem State.setCf_ipend (s : State) (b : Bool) : (s.setCf b).ipend = s.ipend := rfl
@[simp] theorem State.setCf_halted (s : State) (b : Bool) : (s.setCf b).halted = s.halted := rfl
@[simp] theorem State.setCf_mode (s : State) (b : Bool) : (s.setCf b).mode = s.mode := rfl
@[simp] theorem State.setCf_resv (s : State) (b : Bool) : (s.setCf b).resv = s.resv := rfl
@[simp] theorem State.setCf_mem (s : State) (b : Bool) : (s.setCf b).mem = s.mem := rfl
@[simp] theorem State.setCf_text (s : State) (b : Bool) : (s.setCf b).text = s.text := rfl
@[simp] theorem State.setCf_memMap (s : State) (b : Bool) : (s.setCf b).memMap = s.memMap := rfl
@[simp] theorem State.setCf_outcome (s : State) (b : Bool) : (s.setCf b).outcome = s.outcome := rfl
@[simp] theorem State.setCf_draws (s : State) (b : Bool) : (s.setCf b).draws = s.draws := rfl

/-! ## `setFlags` -/

@[simp] theorem State.setFlags_regs (s : State) (f : Flags) : (s.setFlags f).regs = s.regs := rfl
@[simp] theorem State.setFlags_pc (s : State) (f : Flags) : (s.setFlags f).pc = s.pc := rfl
@[simp] theorem State.setFlags_flags (s : State) (f : Flags) : (s.setFlags f).flags = f := rfl
@[simp] theorem State.setFlags_imask (s : State) (f : Flags) : (s.setFlags f).imask = s.imask := rfl
@[simp] theorem State.setFlags_ipend (s : State) (f : Flags) : (s.setFlags f).ipend = s.ipend := rfl
@[simp] theorem State.setFlags_halted (s : State) (f : Flags) : (s.setFlags f).halted = s.halted := rfl
@[simp] theorem State.setFlags_mode (s : State) (f : Flags) : (s.setFlags f).mode = s.mode := rfl
@[simp] theorem State.setFlags_resv (s : State) (f : Flags) : (s.setFlags f).resv = s.resv := rfl
@[simp] theorem State.setFlags_mem (s : State) (f : Flags) : (s.setFlags f).mem = s.mem := rfl
@[simp] theorem State.setFlags_text (s : State) (f : Flags) : (s.setFlags f).text = s.text := rfl
@[simp] theorem State.setFlags_memMap (s : State) (f : Flags) : (s.setFlags f).memMap = s.memMap := rfl
@[simp] theorem State.setFlags_outcome (s : State) (f : Flags) : (s.setFlags f).outcome = s.outcome := rfl
@[simp] theorem State.setFlags_draws (s : State) (f : Flags) : (s.setFlags f).draws = s.draws := rfl

/-! ## `nextDraw` -/

@[simp] theorem State.nextDraw_regs (s : State) : (s.nextDraw).regs = s.regs := rfl
@[simp] theorem State.nextDraw_pc (s : State) : (s.nextDraw).pc = s.pc := rfl
@[simp] theorem State.nextDraw_flags (s : State) : (s.nextDraw).flags = s.flags := rfl
@[simp] theorem State.nextDraw_imask (s : State) : (s.nextDraw).imask = s.imask := rfl
@[simp] theorem State.nextDraw_ipend (s : State) : (s.nextDraw).ipend = s.ipend := rfl
@[simp] theorem State.nextDraw_halted (s : State) : (s.nextDraw).halted = s.halted := rfl
@[simp] theorem State.nextDraw_mode (s : State) : (s.nextDraw).mode = s.mode := rfl
@[simp] theorem State.nextDraw_resv (s : State) : (s.nextDraw).resv = s.resv := rfl
@[simp] theorem State.nextDraw_mem (s : State) : (s.nextDraw).mem = s.mem := rfl
@[simp] theorem State.nextDraw_text (s : State) : (s.nextDraw).text = s.text := rfl
@[simp] theorem State.nextDraw_memMap (s : State) : (s.nextDraw).memMap = s.memMap := rfl
@[simp] theorem State.nextDraw_outcome (s : State) : (s.nextDraw).outcome = s.outcome := rfl
@[simp] theorem State.nextDraw_draws (s : State) : (s.nextDraw).draws = s.draws + 1 := rfl

/-! ## `advance` -/

@[simp] theorem State.advance_regs (s : State) (b : Bool) : (s.advance b).regs = s.regs := rfl
@[simp] theorem State.advance_pc (s : State) (b : Bool) : (s.advance b).pc = nextAddr s.pc b := rfl
@[simp] theorem State.advance_flags (s : State) (b : Bool) : (s.advance b).flags = s.flags := rfl
@[simp] theorem State.advance_imask (s : State) (b : Bool) : (s.advance b).imask = s.imask := rfl
@[simp] theorem State.advance_ipend (s : State) (b : Bool) : (s.advance b).ipend = s.ipend := rfl
@[simp] theorem State.advance_halted (s : State) (b : Bool) : (s.advance b).halted = s.halted := rfl
@[simp] theorem State.advance_mode (s : State) (b : Bool) : (s.advance b).mode = s.mode := rfl
@[simp] theorem State.advance_resv (s : State) (b : Bool) : (s.advance b).resv = s.resv := rfl
@[simp] theorem State.advance_mem (s : State) (b : Bool) : (s.advance b).mem = s.mem := rfl
@[simp] theorem State.advance_text (s : State) (b : Bool) : (s.advance b).text = s.text := rfl
@[simp] theorem State.advance_memMap (s : State) (b : Bool) : (s.advance b).memMap = s.memMap := rfl
@[simp] theorem State.advance_outcome (s : State) (b : Bool) : (s.advance b).outcome = s.outcome := rfl
@[simp] theorem State.advance_draws (s : State) (b : Bool) : (s.advance b).draws = s.draws := rfl

/-! ## `setReg` -/

@[simp] theorem State.setReg_pc (s : State) (r : Reg) (v : Word) : (s.setReg r v).pc = s.pc := by
  unfold State.setReg; split <;> rfl
@[simp] theorem State.setReg_flags (s : State) (r : Reg) (v : Word) : (s.setReg r v).flags = s.flags := by
  unfold State.setReg; split <;> rfl
@[simp] theorem State.setReg_imask (s : State) (r : Reg) (v : Word) : (s.setReg r v).imask = s.imask := by
  unfold State.setReg; split <;> rfl
@[simp] theorem State.setReg_ipend (s : State) (r : Reg) (v : Word) : (s.setReg r v).ipend = s.ipend := by
  unfold State.setReg; split <;> rfl
@[simp] theorem State.setReg_halted (s : State) (r : Reg) (v : Word) : (s.setReg r v).halted = s.halted := by
  unfold State.setReg; split <;> rfl
@[simp] theorem State.setReg_mode (s : State) (r : Reg) (v : Word) : (s.setReg r v).mode = s.mode := by
  unfold State.setReg; split <;> rfl
@[simp] theorem State.setReg_resv (s : State) (r : Reg) (v : Word) : (s.setReg r v).resv = s.resv := by
  unfold State.setReg; split <;> rfl
@[simp] theorem State.setReg_mem (s : State) (r : Reg) (v : Word) : (s.setReg r v).mem = s.mem := by
  unfold State.setReg; split <;> rfl
@[simp] theorem State.setReg_text (s : State) (r : Reg) (v : Word) : (s.setReg r v).text = s.text := by
  unfold State.setReg; split <;> rfl
@[simp] theorem State.setReg_memMap (s : State) (r : Reg) (v : Word) : (s.setReg r v).memMap = s.memMap := by
  unfold State.setReg; split <;> rfl
@[simp] theorem State.setReg_outcome (s : State) (r : Reg) (v : Word) : (s.setReg r v).outcome = s.outcome := by
  unfold State.setReg; split <;> rfl
@[simp] theorem State.setReg_draws (s : State) (r : Reg) (v : Word) : (s.setReg r v).draws = s.draws := by
  unfold State.setReg; split <;> rfl

/-! ## Registers -/

/-- A register's value depends on `regs` alone. -/
theorem State.reg_congr {s t : State} (h : t.regs = s.regs) (r : Reg) : t.reg r = s.reg r := by
  unfold State.reg; rw [h]

@[simp] theorem State.setPc_reg (s : State) (t : Word) (r : Reg) : (s.setPc t).reg r = s.reg r := rfl
@[simp] theorem State.setCf_reg (s : State) (b : Bool) (r : Reg) : (s.setCf b).reg r = s.reg r := rfl
@[simp] theorem State.setFlags_reg (s : State) (f : Flags) (r : Reg) : (s.setFlags f).reg r = s.reg r := rfl
@[simp] theorem State.nextDraw_reg (s : State) (r : Reg) : s.nextDraw.reg r = s.reg r := rfl
@[simp] theorem State.advance_reg (s : State) (b : Bool) (r : Reg) : (s.advance b).reg r = s.reg r := rfl

/-- R0 reads zero (R14). -/
@[simp] theorem State.reg_zero (s : State) : s.reg 0 = 0 := rfl

/-- A write of R0 is discarded (R14). -/
@[simp] theorem State.setReg_zero (s : State) (v : Word) : s.setReg 0 v = s := rfl

/-- A written register reads what was written, unless it is R0. -/
theorem State.reg_setReg_self (s : State) (r : Reg) (v : Word) :
    (s.setReg r v).reg r = if r = 0 then 0 else v := by
  by_cases h : r = 0
  · subst h; rfl
  · have h' : r.val ≠ 0 := fun e => h (Fin.ext e)
    simp [State.reg, State.setReg, h, h']

/-- A write leaves every other register. -/
theorem State.reg_setReg_ne (s : State) {d r : Reg} (v : Word) (h : r ≠ d) :
    (s.setReg d v).reg r = s.reg r := by
  unfold State.reg State.setReg
  by_cases hr : r.val = 0
  · simp [hr]
  · by_cases hd : d.val = 0
    · simp [hd]
    · have : d.val - 1 ≠ r.val - 1 := fun e => h (Fin.ext (by omega))
      simp [hr, hd, Vector.getElem_set_ne _ _ this]

/-- What a register reads after a write: everything a write can do. -/
theorem State.reg_setReg (s : State) (d r : Reg) (v : Word) :
    (s.setReg d v).reg r = if r = d then (if d = 0 then 0 else v) else s.reg r := by
  split
  · next h => subst h; exact s.reg_setReg_self r v
  · next h => exact s.reg_setReg_ne v h

end Sys2Proof.Machine
end

