-- ==== Sys2Proof/Laws/Ops.lean ====
section
/-! SUPPORT. One lemma for each operation the meanings share: everything it can do when it goes on, or
the frame it has. -/

namespace Sys2Proof.Machine

/-- A stop is never a next state (R301, R302). -/
@[simp] theorem stopWith_ne_next (e : Stop) (s t : State) : stopWith e s ≠ .next t := by
  cases e <;> simp [stopWith, raise, refuse]

@[simp] theorem raise_ne_next (f : Fault) (s t : State) : raise f s ≠ .next t := by simp [raise]

@[simp] theorem refuse_ne_next (r : Refusal) (s t : State) : refuse r s ≠ .next t := by simp [refuse]

/-- Everything a counted meaning can do when it goes on. -/
theorem withCount_eq_next {v : Val} {s t : State} {k : Nat → Result} :
    withCount v s k = .next t ↔ goodCount v = true ∧ k v.toNat = .next t := by
  unfold withCount; split <;> simp_all

/-- A count over `SHIFT_MAX` is refused (R173). -/
theorem withCount_refuses {v : Val} {s : State} {k : Nat → Result} (h : 31 < v.toNat) :
    withCount v s k = .refused (.illFormed .shift) := by
  have hg : goodCount v = false := decide_eq_false (Nat.not_le.2 h)
  simp [withCount, hg, refuse]

/-- An admitted count runs (R173). -/
theorem withCount_runs {v : Val} {s : State} {k : Nat → Result} (h : v.toNat ≤ 31) :
    withCount v s k = k v.toNat := by
  have hg : goodCount v = true := decide_eq_true h
  simp [withCount, hg]

/-- A register write followed by the advance changes that register and `pc` only. -/
theorem onlyWrites_setReg_advance (s : State) (d : Reg) (v : Word) (b : Bool) :
    onlyWrites d v b s ((s.setReg d v).advance b) := by
  refine ⟨?_, fun r hr => ?_, ?_, fun a => ?_, ?_, ?_, ?_⟩
  · simp [holds, State.reg_setReg]
  · simp only [State.advance_reg]
    exact s.reg_setReg_ne v (by simpa using hr)
  · simp
  · simp
  · simp [keepsControl]
  · simp
  · simp

/-- What the shape `ri1, r2` does. -/
theorem toDest_completes (src : RI) (d : Reg) (v : Word) (s : State) :
    ∃ t, toDest src d v s = .next t ∧ onlyWrites d v (srcArg src) s t :=
  ⟨_, rfl, onlyWrites_setReg_advance s d v _⟩

/-- What the shape with a register result and no argument parcel does. -/
theorem toReg_completes (d : Reg) (v : Word) (s : State) :
    ∃ t, toReg d v s = .next t ∧ onlyWrites d v false s t :=
  ⟨_, rfl, onlyWrites_setReg_advance s d v _⟩

/-- What an instruction that only goes on does. -/
theorem goOn_completes (b : Bool) (s : State) :
    ∃ t, goOn b s = .next t ∧ onlyGoesTo (nextAddr s.pc b) s t :=
  ⟨_, rfl, by simp [onlyGoesTo, keepsRegsBut, keepsMem, keepsControl]⟩

/-- What a branch does (R257). -/
theorem branch_completes (c : Bool) (adr : Adr) (s : State) :
    ∃ t, branch c adr s = .next t ∧
      onlyGoesTo (if c then eaOf s adr else nextAddr s.pc (adrArg adr)) s t := by
  cases c
  · exact goOn_completes _ s
  · exact ⟨_, rfl, by simp [onlyGoesTo, keepsRegsBut, keepsMem, keepsControl]⟩

/-- The checks of MemRead and MemWrite pass exactly at the accessible addresses. -/
theorem memCheck_eq_none_iff {s : State} {a : Word} : memCheck s a = none ↔ accessible s a := by
  rw [memCheck_eq_none]
  simp only [accessible, forall_and]

/-- MemWrite at an accessible address. -/
theorem memWrite_runs {s : State} {a : Word} (h : accessible s a) (v : Word) :
    memWrite s a v = .ok { s with mem := putWord s.mem a.toNat v } :=
  memWrite_eq_ok.2 ⟨memCheck_eq_none_iff.2 h, rfl⟩

/-- What a word store does to memory (R45). -/
theorem stores_putWord (s : State) (a v : Word) :
    stores a v s { s with mem := putWord s.mem a.toNat v } := by
  refine ⟨fun k hk => ?_, fun x hx => ?_⟩
  · simp only [memByte_putWord]
    rw [if_pos (by omega)]
    simp [byteOfWord]
  · simp only [memByte_putWord]
    rw [if_neg (by omega)]

/-- MemRead where the word's bytes are in memory (R44). -/
theorem memRead_runs {s : State} {a w : Word} (h : accessible s a) (hw : wordAt s.mem a w) :
    memRead s a = .ok w := by
  refine memRead_eq_ok.2 ⟨memCheck_eq_none_iff.2 h, byteOfWord w 0, byteOfWord w 1, byteOfWord w 2,
    byteOfWord w 3, ?_, ?_, ?_, ?_, (wordOfBytes_byteOfWord w).symm⟩
  · exact hw 0 (by decide)
  · exact hw 1 (by decide)
  · exact hw 2 (by decide)
  · exact hw 3 (by decide)

/-- Everything HLT, STI and CLI can do when they go on: the mask is saved first if an address is given,
then the state is changed. -/
theorem maskOp_eq_next {m : Option RI} {save : Adr} {s t : State} {f : Option Word → State → State} :
    maskOp m save s f = .next t ↔ twoArgs m save = false ∧ ∃ u,
      ((adrPresent save = false ∧ u = s) ∨
        (adrPresent save = true ∧ accessible s (eaOf s save) ∧
          u = { s with mem := putWord s.mem (eaOf s save).toNat s.imask })) ∧
      t = (f (m.map (srcOf s)) u).advance (optArg m || adrArg save) := by
  unfold maskOp
  split
  · simp_all
  · next h2 =>
    cases hp : adrPresent save
    · simp [h2, eq_comm]
    · simp only [h2, if_true, true_and, reduceCtorEq, false_and, false_or]
      cases hw : memWrite s (eaOf s save) s.imask with
      | error e =>
        have : memCheck s (eaOf s save) ≠ none := by
          rw [memWrite_eq_error.1 hw]; simp
        simp [← memCheck_eq_none_iff, this]
      | ok u =>
        obtain ⟨hc, hu⟩ := memWrite_eq_ok.1 hw
        simp [← memCheck_eq_none_iff, hc, hu, eq_comm]

end Sys2Proof.Machine
end

