-- ==== Sys2Proof/Laws/PerInstr.lean ====
section
/-! SUPPORT. The family EncodedLength: the record an instruction is encoded as takes the argument parcel
exactly when the instruction does (R63), so that the length the step fetches is the length the meaning
advances by. One lemma per encoding shape, then one per constructor. -/

namespace Sys2Proof.Laws

open Sys2Proof.Machine

/-- The encoded record has an argument parcel exactly when the instruction takes one. -/
def EncodedLength.Statement (i : Instr) : Prop := (encode i).hasArg = takesArg i

section
variable (u : BitVec 4) (o : BitVec 5) (f : BitVec 3) (v : Val) (h : u ≠ 0xF)
include h

theorem hasArg_plain :
    (fieldsOf u o f v).hasArg = false := by
  rw [hasArg_of_unit (by simpa using h)]; simp

theorem hasArg_flag (b : Bool) :
    (putFlag1 b (fieldsOf u o f v)).hasArg = false := by
  rw [hasArg_of_unit (by simpa using h)]; simp

theorem hasArg_r1 (r : Reg) :
    (putR1 r (fieldsOf u o f v)).hasArg = false := by
  rw [hasArg_of_unit (by simpa using h)]; simp

theorem hasArg_vr (n : VR) :
    (putVr n (fieldsOf u o f v)).hasArg = false := by
  rw [hasArg_of_unit (by simpa using h)]; simp

theorem hasArg_r1_r2 (r d : Reg) :
    (putR1 r (putR2 d (fieldsOf u o f v))).hasArg = false := by
  rw [hasArg_of_unit (by simpa using h)]; simp

theorem hasArg_arg (i : Word) (r d : Reg) :
    (putArg i (putR1 r (putR2 d (fieldsOf u o f v)))).hasArg = true := by
  rw [hasArg_of_unit (by simpa using h)]; simp

theorem hasArg_src (src : RI) (d : Reg) :
    (putSrc src (putR2 d (fieldsOf u o f v))).hasArg = srcArg src := by
  rw [hasArg_of_unit (by simpa using h)]; simp

theorem hasArg_src_flag (src : RI) (d : Reg) (b : Bool) :
    (putSrc src (putR2 d (putFlag1 b (fieldsOf u o f v)))).hasArg = srcArg src := by
  rw [hasArg_of_unit (by simpa using h)]; simp

theorem hasArg_opt (m : Option RI) (a : Adr) :
    (putOpt m (putAdr2 a (fieldsOf u o f v))).hasArg = (optArg m || adrArg a) := by
  rw [hasArg_of_unit (by simpa using h)]; simp

theorem hasArg_adr1 (a : Adr) :
    (putAdr1 a (fieldsOf u o f v)).hasArg = adrArg a := by
  rw [hasArg_of_unit (by simpa using h)]; simp

theorem hasArg_adr2 (a : Adr) :
    (putAdr2 a (fieldsOf u o f v)).hasArg = adrArg a := by
  rw [hasArg_of_unit (by simpa using h)]; simp

theorem hasArg_adr1_r2 (a : Adr) (d : Reg) :
    (putAdr1 a (putR2 d (fieldsOf u o f v))).hasArg = adrArg a := by
  rw [hasArg_of_unit (by simpa using h)]; simp

theorem hasArg_r1_adr2 (r : Reg) (a : Adr) :
    (putR1 r (putAdr2 a (fieldsOf u o f v))).hasArg = adrArg a := by
  rw [hasArg_of_unit (by simpa using h)]; simp

end

theorem EncodedLength.nop : EncodedLength.Statement .nop := rfl
theorem EncodedLength.hlt (m : Option RI) (save : Adr) : EncodedLength.Statement (.hlt m save) :=
  hasArg_opt _ _ _ _ (by decide) _ _
theorem EncodedLength.rst (n : VR) : EncodedLength.Statement (.rst n) :=
  hasArg_vr _ _ _ _ (by decide) _
theorem EncodedLength.int (n : VR) : EncodedLength.Statement (.int n) :=
  hasArg_vr _ _ _ _ (by decide) _
theorem EncodedLength.sti (m : Option RI) (save : Adr) : EncodedLength.Statement (.sti m save) :=
  hasArg_opt _ _ _ _ (by decide) _ _
theorem EncodedLength.cli (m : Option RI) (save : Adr) : EncodedLength.Statement (.cli m save) :=
  hasArg_opt _ _ _ _ (by decide) _ _
theorem EncodedLength.rcl (adr : Adr) : EncodedLength.Statement (.rcl adr) :=
  hasArg_adr1 _ _ _ _ (by decide) _
theorem EncodedLength.wfe (v : Val) : EncodedLength.Statement (.wfe v) :=
  hasArg_plain _ _ _ _ (by decide)
theorem EncodedLength.sev (v : Val) : EncodedLength.Statement (.sev v) :=
  hasArg_plain _ _ _ _ (by decide)
theorem EncodedLength.rpc (v : Val) (d : Reg) : EncodedLength.Statement (.rpc v d) :=
  hasArg_r1 _ _ _ _ (by decide) _
theorem EncodedLength.ldx (v : Val) (r : Reg) : EncodedLength.Statement (.ldx v r) :=
  hasArg_r1 _ _ _ _ (by decide) _
theorem EncodedLength.stx (v : Val) (adr : Adr) : EncodedLength.Statement (.stx v adr) :=
  hasArg_adr2 _ _ _ _ (by decide) _
theorem EncodedLength.ipg (adr : Adr) : EncodedLength.Statement (.ipg adr) :=
  hasArg_adr1 _ _ _ _ (by decide) _
theorem EncodedLength.pfc (adr : Adr) : EncodedLength.Statement (.pfc adr) :=
  hasArg_adr1 _ _ _ _ (by decide) _
theorem EncodedLength.flc : EncodedLength.Statement .flc :=
  hasArg_plain _ _ _ _ (by decide)
theorem EncodedLength.plk (adr : Adr) : EncodedLength.Statement (.plk adr) :=
  hasArg_adr1 _ _ _ _ (by decide) _
theorem EncodedLength.brd : EncodedLength.Statement .brd :=
  hasArg_plain _ _ _ _ (by decide)
theorem EncodedLength.bwr : EncodedLength.Statement .bwr :=
  hasArg_plain _ _ _ _ (by decide)
theorem EncodedLength.bar : EncodedLength.Statement .bar :=
  hasArg_plain _ _ _ _ (by decide)
theorem EncodedLength.not (src : RI) (d : Reg) : EncodedLength.Statement (.not src d) :=
  hasArg_src _ _ _ _ (by decide) _ _
theorem EncodedLength.neg (src : RI) (d : Reg) : EncodedLength.Statement (.neg src d) :=
  hasArg_src _ _ _ _ (by decide) _ _
theorem EncodedLength.and (src : RI) (d : Reg) : EncodedLength.Statement (.and src d) :=
  hasArg_src _ _ _ _ (by decide) _ _
theorem EncodedLength.ior (src : RI) (d : Reg) : EncodedLength.Statement (.ior src d) :=
  hasArg_src _ _ _ _ (by decide) _ _
theorem EncodedLength.xor (src : RI) (d : Reg) : EncodedLength.Statement (.xor src d) :=
  hasArg_src _ _ _ _ (by decide) _ _
theorem EncodedLength.inc (d : Reg) : EncodedLength.Statement (.inc d) :=
  hasArg_r1 _ _ _ _ (by decide) _
theorem EncodedLength.dec (d : Reg) : EncodedLength.Statement (.dec d) :=
  hasArg_r1 _ _ _ _ (by decide) _
theorem EncodedLength.add (src : RI) (d : Reg) : EncodedLength.Statement (.add src d) :=
  hasArg_src _ _ _ _ (by decide) _ _
theorem EncodedLength.adc (src : RI) (d : Reg) : EncodedLength.Statement (.adc src d) :=
  hasArg_src _ _ _ _ (by decide) _ _
theorem EncodedLength.sub (src : RI) (d : Reg) : EncodedLength.Statement (.sub src d) :=
  hasArg_src _ _ _ _ (by decide) _ _
theorem EncodedLength.sbb (src : RI) (d : Reg) : EncodedLength.Statement (.sbb src d) :=
  hasArg_src _ _ _ _ (by decide) _ _
theorem EncodedLength.cmp (src : RI) (r : Reg) : EncodedLength.Statement (.cmp src r) :=
  hasArg_src _ _ _ _ (by decide) _ _
theorem EncodedLength.zex (src : RI) (d : Reg) : EncodedLength.Statement (.zex src d) :=
  hasArg_src _ _ _ _ (by decide) _ _
theorem EncodedLength.sex (src : RI) (d : Reg) : EncodedLength.Statement (.sex src d) :=
  hasArg_src _ _ _ _ (by decide) _ _
theorem EncodedLength.mul (src : RI) (d : Reg) : EncodedLength.Statement (.mul src d) :=
  hasArg_src _ _ _ _ (by decide) _ _
theorem EncodedLength.mlh (src : RI) (d : Reg) : EncodedLength.Statement (.mlh src d) :=
  hasArg_src _ _ _ _ (by decide) _ _
theorem EncodedLength.div (src : RI) (d : Reg) : EncodedLength.Statement (.div src d) :=
  hasArg_src _ _ _ _ (by decide) _ _
theorem EncodedLength.rem (src : RI) (d : Reg) : EncodedLength.Statement (.rem src d) :=
  hasArg_src _ _ _ _ (by decide) _ _
theorem EncodedLength.msl (v : Val) (src : RI) (d : Reg) : EncodedLength.Statement (.msl v src d) :=
  hasArg_src _ _ _ _ (by decide) _ _
theorem EncodedLength.msr (v : Val) (r : Reg) (d : Reg) : EncodedLength.Statement (.msr v r d) :=
  hasArg_r1_r2 _ _ _ _ (by decide) _ _
theorem EncodedLength.mad (i : Word) (r : Reg) (d : Reg) : EncodedLength.Statement (.mad i r d) :=
  hasArg_arg _ _ _ _ (by decide) _ _ _
theorem EncodedLength.irp1 (src : RI) (d : Reg) : EncodedLength.Statement (.irp1 src d) :=
  hasArg_src _ _ _ _ (by decide) _ _
theorem EncodedLength.irp2 (d : Reg) : EncodedLength.Statement (.irp2 d) :=
  hasArg_r1 _ _ _ _ (by decide) _
theorem EncodedLength.irp (src : RI) (d : Reg) : EncodedLength.Statement (.irp src d) :=
  hasArg_src _ _ _ _ (by decide) _ _
theorem EncodedLength.shl (v : Val) (r : Reg) (d : Reg) : EncodedLength.Statement (.shl v r d) :=
  hasArg_r1_r2 _ _ _ _ (by decide) _ _
theorem EncodedLength.shr (v : Val) (r : Reg) (d : Reg) : EncodedLength.Statement (.shr v r d) :=
  hasArg_r1_r2 _ _ _ _ (by decide) _ _
theorem EncodedLength.sra (v : Val) (r : Reg) (d : Reg) : EncodedLength.Statement (.sra v r d) :=
  hasArg_r1_r2 _ _ _ _ (by decide) _ _
theorem EncodedLength.rol (v : Val) (r : Reg) (d : Reg) : EncodedLength.Statement (.rol v r d) :=
  hasArg_r1_r2 _ _ _ _ (by decide) _ _
theorem EncodedLength.ror (v : Val) (r : Reg) (d : Reg) : EncodedLength.Statement (.ror v r d) :=
  hasArg_r1_r2 _ _ _ _ (by decide) _ _
theorem EncodedLength.sla (v : Val) (src : RI) (d : Reg) : EncodedLength.Statement (.sla v src d) :=
  hasArg_src _ _ _ _ (by decide) _ _
theorem EncodedLength.slr (v : Val) (src : RI) (d : Reg) : EncodedLength.Statement (.slr v src d) :=
  hasArg_src _ _ _ _ (by decide) _ _
theorem EncodedLength.sal (v : Val) (r : Reg) (d : Reg) : EncodedLength.Statement (.sal v r d) :=
  hasArg_r1_r2 _ _ _ _ (by decide) _ _
theorem EncodedLength.sar (v : Val) (r : Reg) (d : Reg) : EncodedLength.Statement (.sar v r d) :=
  hasArg_r1_r2 _ _ _ _ (by decide) _ _
theorem EncodedLength.slm (v : Val) (src : RI) (d : Reg) : EncodedLength.Statement (.slm v src d) :=
  hasArg_src _ _ _ _ (by decide) _ _
theorem EncodedLength.srm (v : Val) (src : RI) (d : Reg) : EncodedLength.Statement (.srm v src d) :=
  hasArg_src _ _ _ _ (by decide) _ _
theorem EncodedLength.sml (v : Val) (src : RI) (d : Reg) : EncodedLength.Statement (.sml v src d) :=
  hasArg_src _ _ _ _ (by decide) _ _
theorem EncodedLength.smr (v : Val) (src : RI) (d : Reg) : EncodedLength.Statement (.smr v src d) :=
  hasArg_src _ _ _ _ (by decide) _ _
theorem EncodedLength.clz (src : RI) (d : Reg) : EncodedLength.Statement (.clz src d) :=
  hasArg_src _ _ _ _ (by decide) _ _
theorem EncodedLength.ham (src : RI) (d : Reg) : EncodedLength.Statement (.ham src d) :=
  hasArg_src _ _ _ _ (by decide) _ _
theorem EncodedLength.par (src : RI) (d : Reg) : EncodedLength.Statement (.par src d) :=
  hasArg_src _ _ _ _ (by decide) _ _
theorem EncodedLength.swp (wide : Bool) (src : RI) (d : Reg) : EncodedLength.Statement (.swp wide src d) :=
  hasArg_src_flag _ _ _ _ (by decide) _ _ _
theorem EncodedLength.bec (src : RI) (d : Reg) : EncodedLength.Statement (.bec src d) :=
  hasArg_src _ _ _ _ (by decide) _ _
theorem EncodedLength.bdc (src : RI) (d : Reg) : EncodedLength.Statement (.bdc src d) :=
  hasArg_src _ _ _ _ (by decide) _ _
theorem EncodedLength.crc (wide : Bool) : EncodedLength.Statement (.crc wide) :=
  hasArg_flag _ _ _ _ (by decide) _
theorem EncodedLength.ecc : EncodedLength.Statement .ecc :=
  hasArg_plain _ _ _ _ (by decide)
theorem EncodedLength.hsh (src : RI) (d : Reg) : EncodedLength.Statement (.hsh src d) :=
  hasArg_src _ _ _ _ (by decide) _ _
theorem EncodedLength.hun (src : RI) (d : Reg) : EncodedLength.Statement (.hun src d) :=
  hasArg_src _ _ _ _ (by decide) _ _
theorem EncodedLength.ldl : EncodedLength.Statement .ldl :=
  hasArg_plain _ _ _ _ (by decide)
theorem EncodedLength.stl : EncodedLength.Statement .stl :=
  hasArg_plain _ _ _ _ (by decide)
theorem EncodedLength.btc : EncodedLength.Statement .btc :=
  hasArg_plain _ _ _ _ (by decide)
theorem EncodedLength.bts : EncodedLength.Statement .bts :=
  hasArg_plain _ _ _ _ (by decide)
theorem EncodedLength.xadd : EncodedLength.Statement .xadd :=
  hasArg_plain _ _ _ _ (by decide)
theorem EncodedLength.xinc : EncodedLength.Statement .xinc :=
  hasArg_plain _ _ _ _ (by decide)
theorem EncodedLength.xdec : EncodedLength.Statement .xdec :=
  hasArg_plain _ _ _ _ (by decide)
theorem EncodedLength.cas : EncodedLength.Statement .cas :=
  hasArg_plain _ _ _ _ (by decide)
theorem EncodedLength.jmp (adr : Adr) : EncodedLength.Statement (.jmp adr) :=
  hasArg_adr1 _ _ _ _ (by decide) _
theorem EncodedLength.jmr : EncodedLength.Statement .jmr :=
  hasArg_plain _ _ _ _ (by decide)
theorem EncodedLength.bzf (adr : Adr) : EncodedLength.Statement (.bzf adr) :=
  hasArg_adr1 _ _ _ _ (by decide) _
theorem EncodedLength.beq (adr : Adr) : EncodedLength.Statement (.beq adr) :=
  hasArg_adr1 _ _ _ _ (by decide) _
theorem EncodedLength.bne (adr : Adr) : EncodedLength.Statement (.bne adr) :=
  hasArg_adr1 _ _ _ _ (by decide) _
theorem EncodedLength.blt (adr : Adr) : EncodedLength.Statement (.blt adr) :=
  hasArg_adr1 _ _ _ _ (by decide) _
theorem EncodedLength.ble (adr : Adr) : EncodedLength.Statement (.ble adr) :=
  hasArg_adr1 _ _ _ _ (by decide) _
theorem EncodedLength.bgt (adr : Adr) : EncodedLength.Statement (.bgt adr) :=
  hasArg_adr1 _ _ _ _ (by decide) _
theorem EncodedLength.bge (adr : Adr) : EncodedLength.Statement (.bge adr) :=
  hasArg_adr1 _ _ _ _ (by decide) _
theorem EncodedLength.bcf (adr : Adr) : EncodedLength.Statement (.bcf adr) :=
  hasArg_adr1 _ _ _ _ (by decide) _
theorem EncodedLength.bnc (adr : Adr) : EncodedLength.Statement (.bnc adr) :=
  hasArg_adr1 _ _ _ _ (by decide) _
theorem EncodedLength.bof (adr : Adr) : EncodedLength.Statement (.bof adr) :=
  hasArg_adr1 _ _ _ _ (by decide) _
theorem EncodedLength.bno (adr : Adr) : EncodedLength.Statement (.bno adr) :=
  hasArg_adr1 _ _ _ _ (by decide) _
theorem EncodedLength.bsf (adr : Adr) : EncodedLength.Statement (.bsf adr) :=
  hasArg_adr1 _ _ _ _ (by decide) _
theorem EncodedLength.bns (adr : Adr) : EncodedLength.Statement (.bns adr) :=
  hasArg_adr1 _ _ _ _ (by decide) _
theorem EncodedLength.beg : EncodedLength.Statement .beg :=
  hasArg_plain _ _ _ _ (by decide)
theorem EncodedLength.fin : EncodedLength.Statement .fin :=
  hasArg_plain _ _ _ _ (by decide)
theorem EncodedLength.mkf (v : Val) : EncodedLength.Statement (.mkf v) :=
  hasArg_plain _ _ _ _ (by decide)
theorem EncodedLength.csr (adr : Adr) : EncodedLength.Statement (.csr adr) :=
  hasArg_adr1 _ _ _ _ (by decide) _
theorem EncodedLength.sys : EncodedLength.Statement .sys :=
  hasArg_plain _ _ _ _ (by decide)
theorem EncodedLength.thr : EncodedLength.Statement .thr :=
  hasArg_plain _ _ _ _ (by decide)
theorem EncodedLength.thc (v : Val) : EncodedLength.Statement (.thc v) :=
  hasArg_plain _ _ _ _ (by decide)
theorem EncodedLength.thw : EncodedLength.Statement .thw :=
  hasArg_plain _ _ _ _ (by decide)
theorem EncodedLength.thy : EncodedLength.Statement .thy :=
  hasArg_plain _ _ _ _ (by decide)
theorem EncodedLength.ret : EncodedLength.Statement .ret :=
  hasArg_plain _ _ _ _ (by decide)
theorem EncodedLength.srt : EncodedLength.Statement .srt :=
  hasArg_plain _ _ _ _ (by decide)
theorem EncodedLength.thx : EncodedLength.Statement .thx :=
  hasArg_plain _ _ _ _ (by decide)
theorem EncodedLength.irt : EncodedLength.Statement .irt :=
  hasArg_plain _ _ _ _ (by decide)
theorem EncodedLength.ckr : EncodedLength.Statement .ckr :=
  hasArg_plain _ _ _ _ (by decide)
theorem EncodedLength.ckw : EncodedLength.Statement .ckw :=
  hasArg_plain _ _ _ _ (by decide)
theorem EncodedLength.ckx : EncodedLength.Statement .ckx :=
  hasArg_plain _ _ _ _ (by decide)
theorem EncodedLength.ldr (adr : Adr) (d : Reg) : EncodedLength.Statement (.ldr adr d) :=
  hasArg_adr1_r2 _ _ _ _ (by decide) _ _
theorem EncodedLength.ldn : EncodedLength.Statement .ldn :=
  hasArg_plain _ _ _ _ (by decide)
theorem EncodedLength.ldc (v : Val) : EncodedLength.Statement (.ldc v) :=
  hasArg_plain _ _ _ _ (by decide)
theorem EncodedLength.str (r : Reg) (adr : Adr) : EncodedLength.Statement (.str r adr) :=
  hasArg_r1_adr2 _ _ _ _ (by decide) _ _
theorem EncodedLength.stn : EncodedLength.Statement .stn :=
  hasArg_plain _ _ _ _ (by decide)
theorem EncodedLength.stc (v : Val) : EncodedLength.Statement (.stc v) :=
  hasArg_plain _ _ _ _ (by decide)
theorem EncodedLength.psh (r : Reg) : EncodedLength.Statement (.psh r) :=
  hasArg_r1 _ _ _ _ (by decide) _
theorem EncodedLength.psm : EncodedLength.Statement .psm :=
  hasArg_plain _ _ _ _ (by decide)
theorem EncodedLength.pop (d : Reg) : EncodedLength.Statement (.pop d) :=
  hasArg_r1 _ _ _ _ (by decide) _
theorem EncodedLength.pom : EncodedLength.Statement .pom :=
  hasArg_plain _ _ _ _ (by decide)
theorem EncodedLength.ioc (v : Val) : EncodedLength.Statement (.ioc v) :=
  hasArg_plain _ _ _ _ (by decide)
theorem EncodedLength.iop : EncodedLength.Statement .iop :=
  hasArg_plain _ _ _ _ (by decide)
theorem EncodedLength.ird : EncodedLength.Statement .ird :=
  hasArg_plain _ _ _ _ (by decide)
theorem EncodedLength.iwr : EncodedLength.Statement .iwr :=
  hasArg_plain _ _ _ _ (by decide)

end Sys2Proof.Laws
end

