-- ==== Sys2Proof/Laws/Step.lean ====
section
/-! SUPPORT. One lemma for each operation of the step before it executes: the text, the fetch and the
issue of an instruction. -/

namespace Sys2Proof.Machine

/-- Everything the fetch can do when it goes on (R345 steps 4 to 6). -/
theorem fetch_eq_ok {s : State} {i : Instr} :
    fetch s = .ok i ↔ s.pc.toNat % 2 = 0 ∧ ∃ r, textAt s.text s.pc = some r ∧ decode r = .ok i ∧
      wfText s.text = true := by
  unfold fetch
  split
  · simp_all
  · next h =>
    cases ht : textAt s.text s.pc with
    | none => simp
    | some r =>
      cases hd : decode r with
      | error e => simp [hd]
      | ok j => cases hc : wfText s.text <;> simp_all

/-- Everything the issue can do when it goes on (R345 steps 1 to 6). -/
theorem issue_eq_ok {s : State} {i : Instr} :
    issue s = .ok i ↔ s.outcome = none ∧ deliverable s = false ∧ s.halted = false ∧ fetch s = .ok i := by
  unfold issue
  cases s.outcome with
  | some e => simp
  | none =>
    cases deliverable s <;> cases s.halted <;> simp

/-- Everything a step can do when it goes on: an instruction is issued and executed. -/
theorem step_eq_next {s t : State} :
    step s = .next t ↔ ∃ i, issue s = .ok i ∧ exec i s = .next t := by
  unfold step
  cases issue s with
  | error e => cases e <;> simp [stopWith, raise, refuse]
  | ok i => simp

/-- Clearing the low two bits rounds down to a multiple of 4. -/
theorem toNat_and_not_three (x : Word) : (x &&& ~~~3#32).toNat = x.toNat / 4 * 4 := by
  have hb : ∀ i : Nat, i < 32 → (~~~3#32).getLsbD i = decide (2 ≤ i) := by decide
  have h : x &&& ~~~3#32 = (x >>> 2) <<< 2 := by
    apply BitVec.eq_of_getLsbD_eq
    intro i hi
    rw [BitVec.getLsbD_and, hb i hi, BitVec.getLsbD_shiftLeft, BitVec.getLsbD_ushiftRight]
    by_cases h2 : i < 2
    · simp [h2, Nat.not_le.2 h2]
    · have : 2 + (i - 2) = i := by omega
      simp [h2, Nat.not_lt.1 h2, hi, this]
  have := x.isLt
  rw [h, BitVec.toNat_shiftLeft, BitVec.toNat_ushiftRight, Nat.shiftLeft_eq, Nat.shiftRight_eq_div_pow]
  omega

/-- The argument parcel's address as a number (R64). -/
theorem toNat_argAddr (pc : Word) : (argAddr pc).toNat = (pc.toNat + 5) % 2 ^ 32 / 4 * 4 := by
  unfold argAddr
  rw [toNat_and_not_three]
  simp [BitVec.toNat_add]

/-- An instruction occupies its own first byte. -/
theorem occupies_self (a : Word) (r : Record) : occupies a r a = true := by
  have h := toNat_argAddr a
  have := a.isLt
  unfold occupies textSize nextAddr
  cases r.hasArg
  · simp
  · simp [BitVec.toNat_sub, BitVec.toNat_add, h]; omega

/-- What an inserted entry leaves. -/
theorem mem_insertText {e f : Word × Record} {t : Text} :
    f ∈ insertText e t ↔ f = e ∨ f ∈ t := by
  induction t with
  | nil => simp [insertText]
  | cons g t ih =>
    unfold insertText
    split
    · simp
    · simp only [List.mem_cons, ih]; tauto

/-- The record read at an address where no other entry stands is the inserted one. -/
theorem textAt_insertText {a : Word} {r : Record} {t : Text} (h : ∀ e ∈ t, e.1 ≠ a) :
    textAt (insertText (a, r) t) a = some r := by
  induction t with
  | nil => simp [insertText, textAt]
  | cons g t ih =>
    unfold insertText
    split
    · simp [textAt]
    · have hg : g.1 ≠ a := h g (List.mem_cons_self ..)
      simp only [textAt, if_neg hg]
      exact ih fun e he => h e (List.mem_cons_of_mem _ he)

/-- A placed record is the one fetched at its address. -/
theorem textAt_placeText (t : Text) (a : Word) (r : Record) :
    textAt (placeText t a r) a = some r := by
  refine textAt_insertText fun e he ha => ?_
  have := (List.mem_filter.1 he).2
  rw [← ha] at this
  simp [overlap, occupies_self] at this

/-- Overlapping is symmetric. -/
theorem overlap_comm (e f : Word × Record) : overlap e f = overlap f e := Bool.or_comm ..

/-- An inserted entry is checked as one at the front. -/
theorem wfText_insertText (e : Word × Record) (t : Text) : wfText (insertText e t) = wfText (e :: t) := by
  induction t with
  | nil => rfl
  | cons f t ih =>
    unfold insertText
    split
    · rfl
    · have hall : (insertText e t).all (fun g => !overlap f g) = (e :: t).all (fun g => !overlap f g) := by
        rw [Bool.eq_iff_iff]
        simp only [List.all_eq_true, mem_insertText, List.mem_cons]
      simp only [wfText, hall, ih, List.all_cons, overlap_comm f e]
      ac_rfl

/-- Leaving entries out keeps a text well formed. -/
theorem wfText_filter {t : Text} (h : wfText t = true) (p : Word × Record → Bool) :
    wfText (t.filter p) = true := by
  induction t with
  | nil => rfl
  | cons e t ih =>
    simp only [wfText, Bool.and_eq_true] at h
    rw [List.filter_cons]
    split
    · simp only [wfText, Bool.and_eq_true]
      exact ⟨⟨h.1.1, List.all_eq_true.2 fun f hf => List.all_eq_true.1 h.1.2 f (List.mem_filter.1 hf).1⟩, ih h.2⟩
    · exact ih h.2

/-- A record placed at an even address gives a well-formed text. -/
theorem wfText_placeText (t : Text) {a : Word} (ha : a.toNat % 2 = 0) (r : Record) :
    wfText (placeText t a r) = true := by
  rw [placeText, wfText_insertText]
  cases h : wfText t with
  | false => simpa [wfText] using ha
  | true =>
    simp only [wfText, Bool.and_eq_true, Bool.true_and]
    refine ⟨⟨by simpa using ha, List.all_eq_true.2 fun e he => ?_⟩, wfText_filter h _⟩
    rw [overlap_comm]
    exact (List.mem_filter.1 he).2

end Sys2Proof.Machine
end

