-- ==== Sys2Proof/Tests/Slice0.lean ====
section
/-! SUPPORT. The model's own tests: what the checks refuse, a written word for every constructor, single
steps from the vectors of 95_test_vectors.md (named by their numbers there), and for every statement with
hypotheses a concrete state and operands that meet them. -/

namespace Sys2Proof.Tests

open Sys2Proof Sys2Proof.Machine

set_option Elab.async false

/-- A record with this selector word and every other field 0. -/
def ofSel (w : BitVec 19) : Record :=
  ⟨w.extractLsb' 15 4, w.extractLsb' 10 5, w.getLsbD 9, w.getLsbD 8, w.getLsbD 7, w.extractLsb' 0 7, 0, 0,
    false, false, false, false, 0⟩

/-- The state of the test vectors: one record, at `pc`, `MemMap` 0x1000 to 0xFFFF, the registers listed. -/
def start (pc : Word) (r : Record) (regs : List (Reg × Word)) : State :=
  regs.foldl (fun s p => s.setReg p.1 p.2)
    { State.reset with pc := pc, text := [(pc, r)], memMap := [⟨0x1000, 0xF000⟩] }

/-- A memory that holds one word, its bytes written out. -/
def word (a : Nat) (v : Nat) : Memory :=
  [(a, BitVec.ofNat 8 v), (a + 1, BitVec.ofNat 8 (v / 0x100)), (a + 2, BitVec.ofNat 8 (v / 0x10000)),
    (a + 3, BitVec.ofNat 8 (v / 0x1000000))]

/-- The step goes on to exactly this state. -/
def runs (s : State) (t : State → State) : Bool :=
  match step s with
  | .next u => u == t s
  | _ => false

/-- The step goes on to a state of which this holds. -/
def runsTo (s : State) (p : State → Bool) : Bool :=
  match step s with
  | .next u => p u
  | _ => false

/-- The step ends in this fault. -/
def faults (s : State) (f : Fault) : Bool :=
  match step s with
  | .fault g => g == f
  | _ => false

/-- The step is refused for this reason. -/
def refuses (s : State) (r : Refusal) : Bool :=
  match step s with
  | .refused q => q == r
  | _ => false

/-- The step's answer is a next state. -/
def completes (r : Result) : Bool :=
  match r with
  | .next _ => true
  | _ => false

/-- The state after an instruction, or the state before it where it stops. -/
def after (i : Instr) (s : State) : State :=
  match exec i s with
  | .next t => t
  | _ => s

theorem exec_after {i : Instr} {s : State} (h : completes (exec i s) = true) :
    exec i s = .next (after i s) := by
  unfold after
  cases hx : exec i s <;> simp_all [completes]

/-! ## What the checks refuse (30_encoding.md, R74) -/

theorem test_wf_one_arg : wellFormed (.hlt (some (.imm 1)) ⟨none, some 4⟩) = false := by decide

theorem test_wf_one_arg_ok : wellFormed (.hlt (some (.reg 1)) ⟨none, some 4⟩) = true := by decide

theorem test_wf_shift : wellFormed (.shl 32 1 2) = false ∧ wellFormed (.shl 31 1 2) = true := by decide

theorem test_check_one_arg_E8 :
    refuses
      (start 0x100 { ofSel 0x09C00 with r2 := 2, imm := true, ndx := true, arg := 0x5 } [(2, 0x1)]) (.illFormed .oneArg) :=
  by decide +kernel

theorem test_check_imm_E9 :
    refuses
      (start 0x100 { ofSel 0x09400 with r1 := 2, imm := true, arg := 0x5 } [(2, 0x1)]) (.illFormed .imm) :=
  by decide +kernel

theorem test_check_imm_E10 :
    refuses (start 0x100 { ofSel 0x11800 with r1 := 1, r2 := 2 } [(1, 0x1), (2, 0x1)]) (.illFormed .imm) :=
  by decide +kernel

theorem test_check_adr_E11 :
    refuses
      (start 0x100 { ofSel 0x09C00 with r1 := 1, r2 := 2, reg := true } [(1, 0x1), (2, 0x1)]) (.illFormed .adr) :=
  by decide +kernel

theorem test_check_p1_E12 :
    refuses
      (start 0x100 { ofSel 0x09C00 with r1 := 1, r2 := 2, p1 := true } [(1, 0x1), (2, 0x1)]) (.illFormed .p1) :=
  by decide +kernel

theorem test_check_p1_E13 :
    refuses (start 0x100 { ofSel 0x00000 with imm := true, arg := 0x1 } []) (.illFormed .p1) :=
  by decide +kernel

theorem test_check_pc_operand_E14 :
    refuses (start 0x100 { ofSel 0x09C00 with r1 := 15, r2 := 2 } [(2, 0x1)]) .pcOperand :=
  by decide +kernel

theorem test_check_pc_operand_E15 :
    refuses (start 0x100 { ofSel 0x09C00 with r1 := 1, r2 := 15 } [(1, 0x1)]) .pcOperand :=
  by decide +kernel

theorem test_check_pc_operand_E16 :
    refuses (start 0x100 { ofSel 0x09400 with r1 := 15 } []) .pcOperand :=
  by decide +kernel

theorem test_check_shift_M16 :
    refuses (start 0x100 { ofSel 0x11220 with r1 := 1, r2 := 2 } [(1, 0x3), (2, 0x1)]) (.illFormed .shift) :=
  by decide +kernel

theorem test_check_shift_H4 :
    refuses (start 0x100 { ofSel 0x18020 with r1 := 1, r2 := 2 } [(1, 0x3)]) (.illFormed .shift) :=
  by decide +kernel

theorem test_check_shift_H25 :
    refuses (start 0x100 { ofSel 0x18CA1 with r1 := 1, r2 := 2 } [(1, 0x3), (2, 0x5)]) (.illFormed .shift) :=
  by decide +kernel

theorem test_check_selector :
    [ofSel 0x3060D, ofSel 0x40000, ofSel 0x20C00, ofSel 0x7FFFE].all
      (fun r => refuses (start 0x100 r []) (.illFormed .selector)) = true := by decide +kernel

theorem test_check_cond :
    (Format.condAdr .bzf).check (ofSel 0x3060D) = some .cond ∧
      (Format.condAdr .bzf).check (ofSel 0x3060C) = none := by decide

/-- WF_TEXT over the whole text: an overlap with the instruction at `pc`, an odd address elsewhere, an
overlap of two others; two instructions that touch are well formed. -/
theorem test_check_text :
    [[(0xFC, { ofSel 0x09C00 with imm := true }), (0x100, ofSel 0x7FFFF)],
      [(0x100, ofSel 0x7FFFF), (0x201, ofSel 0x7FFFF)],
      [(0x100, ofSel 0x7FFFF), (0x200, { ofSel 0x09C00 with imm := true }), (0x206, ofSel 0x7FFFF)]].all
      (fun t => refuses { start 0x100 (ofSel 0x7FFFF) [] with text := t } (.illFormed .text)) = true ∧
    wfText [(0xF8, { ofSel 0x09C00 with imm := true }), (0x100, ofSel 0x7FFFF), (0x102, ofSel 0x7FFFF)] = true := by
  decide +kernel

/-! ## A word for every constructor (30_encoding.md, R75 to R77) -/

theorem test_words_sys : ∀ p ∈ ([
    (0x7FFFF, .nop), (0x00000, .hlt none ⟨none, none⟩), (0x00400, .rst (.reg 0)), (0x00800, .int (.reg 0)),
    (0x00C00, .sti none ⟨none, none⟩), (0x01000, .cli none ⟨none, none⟩), (0x01400, .rcl ⟨none, none⟩),
    (0x01A05, .wfe 5), (0x01E05, .sev 5), (0x02205, .rpc 5 0), (0x02605, .ldx 5 0),
    (0x02A05, .stx 5 ⟨none, none⟩), (0x02C00, .ipg ⟨none, none⟩), (0x03000, .pfc ⟨none, none⟩),
    (0x03400, .flc), (0x03800, .plk ⟨none, none⟩), (0x03C00, .brd), (0x04000, .bwr), (0x04400, .bar)
    ] : List (Nat × Instr)), decodeTableWord 24 p.1 = some p.2 := by
  decide +kernel

theorem test_words_alu : ∀ p ∈ ([
    (0x08000, .not (.reg 0) 0), (0x08400, .neg (.reg 0) 0), (0x08800, .and (.reg 0) 0),
    (0x08C00, .ior (.reg 0) 0), (0x09000, .xor (.reg 0) 0), (0x09400, .inc 0), (0x09800, .dec 0),
    (0x09C00, .add (.reg 0) 0), (0x0A000, .adc (.reg 0) 0), (0x0A400, .sub (.reg 0) 0),
    (0x0A800, .sbb (.reg 0) 0), (0x0AC00, .cmp (.reg 0) 0), (0x0B000, .zex (.reg 0) 0),
    (0x0B400, .sex (.reg 0) 0)
    ] : List (Nat × Instr)), decodeTableWord 24 p.1 = some p.2 := by
  decide +kernel

theorem test_words_multi : ∀ p ∈ ([
    (0x10000, .mul (.reg 0) 0), (0x10400, .mlh (.reg 0) 0), (0x10800, .div (.reg 0) 0),
    (0x10C00, .rem (.reg 0) 0), (0x11205, .msl 5 (.reg 0) 0), (0x11605, .msr 5 0 0), (0x11800, .mad 0 0 0),
    (0x11C00, .irp1 (.reg 0) 0), (0x12000, .irp2 0), (0x12400, .irp (.reg 0) 0)
    ] : List (Nat × Instr)), decodeTableWord 24 p.1 = some p.2 := by
  decide +kernel

theorem test_words_shift : ∀ p ∈ ([
    (0x18005, .shl 5 0 0), (0x18105, .shr 5 0 0), (0x18185, .sra 5 0 0), (0x18205, .rol 5 0 0),
    (0x18305, .ror 5 0 0), (0x18405, .sla 5 (.reg 0) 0), (0x18585, .slr 5 (.reg 0) 0),
    (0x18505, .sal 5 0 0), (0x18485, .sar 5 0 0), (0x18805, .slm 5 (.reg 0) 0),
    (0x18905, .srm 5 (.reg 0) 0), (0x18C05, .sml 5 (.reg 0) 0), (0x18C85, .smr 5 (.reg 0) 0)
    ] : List (Nat × Instr)), decodeTableWord 24 p.1 = some p.2 := by
  decide +kernel

theorem test_words_bit : ∀ p ∈ ([
    (0x20000, .clz (.reg 0) 0), (0x20100, .ham (.reg 0) 0), (0x20080, .par (.reg 0) 0),
    (0x20400, .swp false (.reg 0) 0), (0x20800, .bec (.reg 0) 0), (0x20900, .bdc (.reg 0) 0),
    (0x21000, .crc false), (0x21180, .ecc), (0x21400, .hsh (.reg 0) 0), (0x21500, .hun (.reg 0) 0)
    ] : List (Nat × Instr)), decodeTableWord 24 p.1 = some p.2 := by
  decide +kernel

theorem test_words_atom : ∀ p ∈ ([
    (0x28000, .ldl), (0x28080, .stl), (0x28400, .btc), (0x28500, .bts), (0x28800, .xadd), (0x28900, .xinc),
    (0x28880, .xdec), (0x28C00, .cas)
    ] : List (Nat × Instr)), decodeTableWord 24 p.1 = some p.2 := by
  decide +kernel

theorem test_words_flow : ∀ p ∈ ([
    (0x30000, .jmp ⟨none, none⟩), (0x30100, .jmr), (0x30600, .bzf ⟨none, none⟩),
    (0x30601, .beq ⟨none, none⟩), (0x30602, .bne ⟨none, none⟩), (0x30603, .blt ⟨none, none⟩),
    (0x30604, .ble ⟨none, none⟩), (0x30605, .bgt ⟨none, none⟩), (0x30606, .bge ⟨none, none⟩),
    (0x30607, .bcf ⟨none, none⟩), (0x30608, .bnc ⟨none, none⟩), (0x30609, .bof ⟨none, none⟩),
    (0x3060A, .bno ⟨none, none⟩), (0x3060B, .bsf ⟨none, none⟩), (0x3060C, .bns ⟨none, none⟩),
    (0x30800, .beg), (0x30900, .fin), (0x30A05, .mkf 5), (0x30C00, .csr ⟨none, none⟩), (0x30D00, .sys),
    (0x31400, .thr), (0x31605, .thc 5), (0x31500, .thw), (0x31480, .thy), (0x31000, .ret), (0x31100, .srt),
    (0x31080, .thx), (0x31180, .irt)
    ] : List (Nat × Instr)), decodeTableWord 24 p.1 = some p.2 := by
  decide +kernel

theorem test_words_xfer : ∀ p ∈ ([
    (0x38000, .ckr), (0x38100, .ckw), (0x38080, .ckx), (0x38400, .ldr ⟨none, none⟩ 0), (0x38500, .ldn),
    (0x38605, .ldc 5), (0x38800, .str 0 ⟨none, none⟩), (0x38900, .stn), (0x38A05, .stc 5),
    (0x38C00, .psh 0), (0x38D00, .psm), (0x38C80, .pop 0), (0x38D80, .pom), (0x39205, .ioc 5),
    (0x39000, .iop), (0x39100, .ird), (0x39080, .iwr)
    ] : List (Nat × Instr)), decodeTableWord 24 p.1 = some p.2 := by
  decide +kernel

/-- The variant forms: the VAL bit of RST and INT, FLAG1 of SWP and CRC. -/
theorem test_words_variants : ∀ p ∈ ([
    (0x00601, .rst (.val 1)), (0x00A1F, .int (.val 31)), (0x20500, .swp true (.reg 0) 0),
    (0x21100, .crc true)] : List (Nat × Instr)), decodeTableWord 24 p.1 = some p.2 := by
  decide +kernel

/-- The operand fields, one record for each format with operands (30_encoding.md, R68). -/
theorem test_operand_fields : ∀ p ∈ ([
    ({ ofSel 0x00000 with r1 := 1, r2 := 2, p1 := true, ndx := true, reg := true, arg := 7 },
      .hlt (some (.reg 1)) ⟨some 2, some 7⟩),
    ({ ofSel 0x00C00 with r2 := 2, p1 := true, imm := true, reg := true, arg := 7 },
      .sti (some (.imm 7)) ⟨some 2, none⟩),
    ({ ofSel 0x00400 with r1 := 3 }, .rst (.reg 3)),
    ({ ofSel 0x01400 with r1 := 4, r2 := 2, reg := true }, .rcl ⟨some 4, none⟩),
    ({ ofSel 0x02206 with r1 := 5 }, .rpc 6 5),
    ({ ofSel 0x02A02 with r1 := 1, r2 := 2, reg := true }, .stx 2 ⟨some 2, none⟩),
    ({ ofSel 0x0A400 with r1 := 1, r2 := 14 }, .sub (.reg 1) 14),
    ({ ofSel 0x09400 with r1 := 14, r2 := 15 }, .inc 14),
    ({ ofSel 0x11C00 with r1 := 1, r2 := 2 }, .irp1 (.reg 1) 2),
    ({ ofSel 0x11204 with r2 := 2, imm := true, arg := 3 }, .msl 4 (.imm 3) 2),
    ({ ofSel 0x18184 with r1 := 1, r2 := 2 }, .sra 4 1 2),
    ({ ofSel 0x11800 with r1 := 1, r2 := 2, imm := true, arg := 7 }, .mad 7 1 2),
    ({ ofSel 0x30602 with r1 := 3, ndx := true, reg := true, arg := 8 }, .bne ⟨some 3, some 8⟩),
    ({ ofSel 0x38400 with r1 := 1, r2 := 2, reg := true }, .ldr ⟨some 1, none⟩ 2),
    ({ ofSel 0x38800 with r1 := 1, r2 := 2, reg := true }, .str 1 ⟨some 2, none⟩)] : List (Record × Instr)),
    decode p.1 = .ok p.2 ∧ encode p.2 = { p.1 with r1 := (encode p.2).r1, r2 := (encode p.2).r2 } := by
  decide +kernel

/-! ## Single steps from the test vectors -/

theorem test_fetch_E6 : faults (start 0x101 (ofSel 0x7FFFF) []) (.misalignedFetch 0x101) := by decide +kernel

theorem test_fetch_E7 : refuses { start 0x100 (ofSel 0) [] with text := [] } .noInstruction = true := by
  decide +kernel

theorem test_trap_entry_S34 :
    refuses { start 0x100 (ofSel 0x7FFFF) [] with imask := 0x20, ipend := 0x20 } .trapEntry :=
  by decide +kernel

theorem test_masked_S35 :
    runs { start 0x100 (ofSel 0x7FFFF) [] with imask := 0x10, ipend := 0x20 }
      fun s => { s with pc := 0x102 } :=
  by decide +kernel

theorem test_nop_E1 :
    runs (start 0x100 (ofSel 0x7FFFF) []) fun s => { s with pc := 0x102 } :=
  by decide +kernel

theorem test_nop_E5 :
    runs (start 0xfffffffe (ofSel 0x7FFFF) []) fun s => { s with pc := 0x0 } :=
  by decide +kernel

theorem test_hlt_S2 :
    runs { start 0x100 { ofSel 0x00000 with r2 := 2, imm := true, reg := true, p1 := true, arg := 0x3 } [(2, 0x2000)] with imask := 0xf }
      fun s => { s with imask := 0xc, halted := true, mem := word 0x2000 0xf, pc := 0x108 } :=
  by decide +kernel

theorem test_hlt_S4 :
    faults { start 0x100 { ofSel 0x00000 with r2 := 2, reg := true } [(2, 0x2002)] with imask := 0xf } (.misalignedAccess 0x2002) :=
  by decide +kernel

theorem test_rst_S6 :
    runs (start 0x100 (ofSel 0x00600) []) fun s => { s with outcome := some (.reset false) } :=
  by decide +kernel

theorem test_rst_S7 :
    runs (start 0x100 { ofSel 0x00400 with r1 := 3 } [(3, 0x100)])
      fun s => { s with outcome := some (.reset true) } :=
  by decide +kernel

theorem test_int_S9 :
    runs { start 0x100 (ofSel 0x00A1F) [] with ipend := 0x1 }
      fun s => { s with ipend := 0x80000001, pc := 0x102 } :=
  by decide +kernel

theorem test_int_S10 : refuses (start 0x100 (ofSel 0x00A20) []) (.irqNumber 32) := by decide +kernel

theorem test_sti_S12 :
    runs { start 0x100 (ofSel 0x00C00) [] with imask := 0x1 }
      fun s => { s with imask := 0xffffffff, pc := 0x102 } :=
  by decide +kernel

theorem test_sti_S15 :
    runs { start 0x100 { ofSel 0x00C00 with r1 := 1, ndx := true, p1 := true, arg := 0x3000 } [(1, 0x2)] with imask := 0x1 }
      fun s => { s with imask := 0x3, mem := word 0x3000 0x1, pc := 0x108 } :=
  by decide +kernel

theorem test_cli_S17 :
    runs { start 0x100 { ofSel 0x01000 with r2 := 2, reg := true } [(2, 0x3000)] with imask := 0xff }
      fun s => { s with imask := 0x0, mem := word 0x3000 0xff, pc := 0x102 } :=
  by decide +kernel

theorem test_cli_S18 :
    runs { start 0x100 { ofSel 0x01000 with imm := true, p1 := true, arg := 0x30 } [] with imask := 0xf0, ipend := 0x3 }
      fun s => { s with imask := 0xc0, pc := 0x108 } :=
  by decide +kernel

theorem test_wfe_S20 :
    runs (start 0x40 (ofSel 0x01A00) []) fun s => { s with outcome := some .stuck } :=
  by decide +kernel

theorem test_sev_S21 :
    runs (start 0x100 (ofSel 0x01E03) []) fun s => { s with pc := 0x102 } :=
  by decide +kernel

theorem test_pfc_S28 :
    runs (start 0x102 { ofSel 0x03000 with ndx := true, arg := 0x8000 } []) fun s => { s with pc := 0x108 } :=
  by decide +kernel

theorem test_flc_S29 :
    runs (start 0x100 (ofSel 0x03400) []) fun s => { s with pc := 0x102 } :=
  by decide +kernel

theorem test_brd_S31 :
    runs (start 0x100 (ofSel 0x03C00) []) fun s => { s with pc := 0x102 } :=
  by decide +kernel

theorem test_bwr_S32 :
    runs (start 0x100 (ofSel 0x04000) []) fun s => { s with pc := 0x102 } :=
  by decide +kernel

theorem test_bar_S33 :
    runs (start 0x100 (ofSel 0x04400) []) fun s => { s with pc := 0x102 } :=
  by decide +kernel

theorem test_not_A1 :
    runs (start 0x100 { ofSel 0x08000 with r1 := 1, r2 := 2 } [(1, 0xffff)])
      fun s => { (s.setReg 2 0xffff0000) with pc := 0x102 } :=
  by decide +kernel

theorem test_neg_A4 :
    runs (start 0x100 { ofSel 0x08400 with r2 := 2, imm := true, arg := 0x80000000 } [])
      fun s => { (s.setReg 2 0x80000000) with pc := 0x108 } :=
  by decide +kernel

theorem test_and_A5 :
    runs (start 0x100 { ofSel 0x08800 with r2 := 2, imm := true, arg := 0xff00ff0 } [(2, 0xf0f0f0f0)])
      fun s => { (s.setReg 2 0xf000f0) with pc := 0x108 } :=
  by decide +kernel

theorem test_ior_A6 :
    runs (start 0x100 { ofSel 0x08C00 with r1 := 1, r2 := 2 } [(1, 0xff0000), (2, 0xff00)])
      fun s => { (s.setReg 2 0xffff00) with pc := 0x102 } :=
  by decide +kernel

theorem test_xor_A8 :
    runs (start 0x100 { ofSel 0x09000 with r1 := 2, r2 := 2 } [(2, 0x12345678)])
      fun s => { (s.setReg 2 0x0) with pc := 0x102 } :=
  by decide +kernel

theorem test_inc_A10 :
    runs (start 0x100 { ofSel 0x09400 with r1 := 5 } [(5, 0xffffffff)])
      fun s => { (s.setReg 5 0x0) with pc := 0x102 } :=
  by decide +kernel

theorem test_dec_A11 :
    runs (start 0x100 { ofSel 0x09800 with r1 := 5 } [(5, 0x0)])
      fun s => { (s.setReg 5 0xffffffff) with pc := 0x102 } :=
  by decide +kernel

theorem test_add_E3 :
    runs (start 0x100 { ofSel 0x09C00 with r2 := 2, imm := true, arg := 0x5 } [(2, 0x1)])
      fun s => { (s.setReg 2 0x6) with pc := 0x108 } :=
  by decide +kernel

theorem test_add_A16 :
    runs (start 0x100 { ofSel 0x09C00 with r1 := 1 } [(1, 0x5)]) fun s => { s with pc := 0x102 } :=
  by decide +kernel

theorem test_adc_A13 :
    runs (start 0x100 { ofSel 0x0A000 with r2 := 2, imm := true, arg := 0x1 } [(2, 0xffffffff)])
      fun s => { (s.setReg 2 0x0) with flags := { s.flags with cf := true }, pc := 0x108 } :=
  by decide +kernel

theorem test_adc_A14 :
    runs { start 0x100 { ofSel 0x0A000 with r2 := 2, imm := true, arg := 0x1 } [(2, 0x1)] with flags := ⟨false, true, false, false⟩ }
      fun s => { (s.setReg 2 0x2) with flags := { s.flags with cf := false }, pc := 0x108 } :=
  by decide +kernel

theorem test_sub_A15 :
    runs (start 0x100 { ofSel 0x0A400 with r2 := 2, imm := true, arg := 0x7 } [(2, 0x5)])
      fun s => { (s.setReg 2 0xfffffffe) with pc := 0x108 } :=
  by decide +kernel

theorem test_sbb_A18 :
    runs (start 0x100 { ofSel 0x0A800 with r2 := 2, imm := true, arg := 0x1 } [(2, 0x0)])
      fun s => { (s.setReg 2 0xffffffff) with flags := { s.flags with cf := true }, pc := 0x108 } :=
  by decide +kernel

theorem test_sbb_A19 :
    runs { start 0x100 { ofSel 0x0A800 with r2 := 2, imm := true, arg := 0x1 } [(2, 0x5)] with flags := ⟨false, true, false, false⟩ }
      fun s => { (s.setReg 2 0x4) with flags := { s.flags with cf := false }, pc := 0x108 } :=
  by decide +kernel

theorem test_cmp_A23 :
    runs (start 0x100 { ofSel 0x0AC00 with r2 := 2, imm := true, arg := 0x1 } [(2, 0x80000000)])
      fun s => { s with flags := ⟨false, false, true, false⟩, pc := 0x108 } :=
  by decide +kernel

theorem test_cmp_A24 :
    runs (start 0x100 { ofSel 0x0AC00 with r2 := 2, imm := true, arg := 0xffffffff } [(2, 0x7fffffff)])
      fun s => { s with flags := ⟨false, true, true, true⟩, pc := 0x108 } :=
  by decide +kernel

theorem test_mul_M1 :
    runs (start 0x100 { ofSel 0x10000 with r2 := 2, imm := true, arg := 0x2 } [(2, 0xffffffff)])
      fun s => { (s.setReg 2 0xfffffffe) with pc := 0x108 } :=
  by decide +kernel

theorem test_mlh_M4 :
    runs (start 0x100 { ofSel 0x10400 with r2 := 2, imm := true, arg := 0x2 } [(2, 0xffffffff)])
      fun s => { (s.setReg 2 0xffffffff) with pc := 0x108 } :=
  by decide +kernel

theorem test_mlh_M5 :
    runs (start 0x100 { ofSel 0x10400 with r2 := 2, imm := true, arg := 0x80000000 } [(2, 0x80000000)])
      fun s => { (s.setReg 2 0x40000000) with pc := 0x108 } :=
  by decide +kernel

theorem test_div_M7 :
    runs (start 0x100 { ofSel 0x10800 with r2 := 2, imm := true, arg := 0xfffffffe } [(2, 0x7)])
      fun s => { (s.setReg 2 0xfffffffd) with pc := 0x108 } :=
  by decide +kernel

theorem test_div_M9 :
    faults
      (start 0x100 { ofSel 0x10800 with r2 := 2, imm := true, arg := 0xffffffff } [(2, 0x80000000)]) .divideOverflow :=
  by decide +kernel

theorem test_rem_M10 :
    runs (start 0x100 { ofSel 0x10C00 with r2 := 2, imm := true, arg := 0x2 } [(2, 0xfffffff9)])
      fun s => { (s.setReg 2 0xffffffff) with pc := 0x108 } :=
  by decide +kernel

theorem test_rem_M12 :
    faults (start 0x100 { ofSel 0x10C00 with r2 := 2, imm := true } [(2, 0x7)]) .divideByZero :=
  by decide +kernel

theorem test_msl_M14 :
    runs (start 0x100 { ofSel 0x11204 with r2 := 2, imm := true, arg := 0x3 } [(2, 0x5)])
      fun s => { (s.setReg 2 0xf0) with pc := 0x108 } :=
  by decide +kernel

theorem test_msl_M15 :
    runs (start 0x100 { ofSel 0x1121F with r1 := 1, r2 := 2 } [(1, 0x3), (2, 0x1)])
      fun s => { (s.setReg 2 0x80000000) with pc := 0x102 } :=
  by decide +kernel

theorem test_msr_M17 :
    runs (start 0x100 { ofSel 0x11604 with r1 := 1, r2 := 2 } [(1, 0x10), (2, 0x30)])
      fun s => { (s.setReg 2 0x30) with pc := 0x102 } :=
  by decide +kernel

theorem test_msr_M18 :
    runs (start 0x100 { ofSel 0x11604 with r1 := 1, r2 := 2 } [(1, 0x10000), (2, 0x18000)])
      fun s => { (s.setReg 2 0x8000000) with pc := 0x102 } :=
  by decide +kernel

theorem test_mad_M19 :
    runs (start 0x100 { ofSel 0x11800 with r1 := 1, r2 := 2, imm := true, arg := 0x7 } [(1, 0x3), (2, 0x4)])
      fun s => { (s.setReg 2 0x13) with pc := 0x108 } :=
  by decide +kernel

theorem test_mad_M20 :
    runs (start 0x100 { ofSel 0x11800 with r1 := 1, r2 := 2, imm := true, arg := 0xffffffff } [(1, 0xffffffff), (2, 0xffffffff)])
      fun s => { (s.setReg 2 0x0) with pc := 0x108 } :=
  by decide +kernel

theorem test_shl_H2 :
    runs (start 0x100 { ofSel 0x1801F with r1 := 1, r2 := 2 } [(1, 0x3)])
      fun s => { (s.setReg 2 0x80000000) with pc := 0x102 } :=
  by decide +kernel

theorem test_shr_H6 :
    runs (start 0x100 { ofSel 0x18104 with r1 := 1, r2 := 2 } [(1, 0x80000000)])
      fun s => { (s.setReg 2 0x8000000) with pc := 0x102 } :=
  by decide +kernel

theorem test_sra_H7 :
    runs (start 0x100 { ofSel 0x18184 with r1 := 1, r2 := 2 } [(1, 0x80000000)])
      fun s => { (s.setReg 2 0xf8000000) with pc := 0x102 } :=
  by decide +kernel

theorem test_sra_H8 :
    runs (start 0x100 { ofSel 0x18184 with r1 := 1, r2 := 2 } [(1, 0x40000000)])
      fun s => { (s.setReg 2 0x4000000) with pc := 0x102 } :=
  by decide +kernel

theorem test_rol_H10 :
    runs (start 0x100 { ofSel 0x18204 with r1 := 1, r2 := 2 } [(1, 0xf0000001)])
      fun s => { (s.setReg 2 0x1f) with pc := 0x102 } :=
  by decide +kernel

theorem test_rol_H11 :
    runs (start 0x100 { ofSel 0x18200 with r1 := 1, r2 := 2 } [(1, 0xf0000001)])
      fun s => { (s.setReg 2 0xf0000001) with pc := 0x102 } :=
  by decide +kernel

theorem test_ror_H12 :
    runs (start 0x100 { ofSel 0x18304 with r1 := 1, r2 := 2 } [(1, 0x1f)])
      fun s => { (s.setReg 2 0xf0000001) with pc := 0x102 } :=
  by decide +kernel

theorem test_ror_H13 :
    runs (start 0x100 { ofSel 0x1831F with r1 := 1, r2 := 2 } [(1, 0x1)])
      fun s => { (s.setReg 2 0x2) with pc := 0x102 } :=
  by decide +kernel

theorem test_sla_H14 :
    runs (start 0x100 { ofSel 0x18402 with r2 := 2, imm := true, arg := 0x1 } [(2, 0x3)])
      fun s => { (s.setReg 2 0xd) with pc := 0x108 } :=
  by decide +kernel

theorem test_sla_H15 :
    runs (start 0x100 { ofSel 0x1841F with r1 := 1, r2 := 2 } [(1, 0x80000000), (2, 0x3)])
      fun s => { (s.setReg 2 0x0) with pc := 0x102 } :=
  by decide +kernel

theorem test_slr_H16 :
    runs (start 0x100 { ofSel 0x18582 with r2 := 2, imm := true, arg := 0x1 } [(2, 0xc)])
      fun s => { (s.setReg 2 0x4) with pc := 0x108 } :=
  by decide +kernel

theorem test_slr_H17 :
    runs (start 0x100 { ofSel 0x18584 with r2 := 2, imm := true } [(2, 0x80000000)])
      fun s => { (s.setReg 2 0x8000000) with pc := 0x108 } :=
  by decide +kernel

theorem test_sal_H18 :
    runs (start 0x100 { ofSel 0x18502 with r1 := 1, r2 := 2 } [(1, 0x1), (2, 0x2)])
      fun s => { (s.setReg 2 0xc) with pc := 0x102 } :=
  by decide +kernel

theorem test_sar_H19 :
    runs (start 0x100 { ofSel 0x18481 with r1 := 1, r2 := 2 } [(1, 0x6), (2, 0x2)])
      fun s => { (s.setReg 2 0x4) with pc := 0x102 } :=
  by decide +kernel

theorem test_sar_H20 :
    runs (start 0x100 { ofSel 0x18481 with r1 := 1, r2 := 2 } [(1, 0xffffffff), (2, 0x3)])
      fun s => { (s.setReg 2 0x1) with pc := 0x102 } :=
  by decide +kernel

theorem test_slm_H21 :
    runs (start 0x100 { ofSel 0x18803 with r2 := 2, imm := true, arg := 0x2 } [(2, 0x5)])
      fun s => { (s.setReg 2 0x50) with pc := 0x108 } :=
  by decide +kernel

theorem test_srm_H22 :
    runs (start 0x100 { ofSel 0x18903 with r2 := 2, imm := true, arg := 0x10 } [(2, 0x5)])
      fun s => { (s.setReg 2 0xa) with pc := 0x108 } :=
  by decide +kernel

theorem test_sml_H23 :
    runs (start 0x100 { ofSel 0x18C03 with r1 := 1, r2 := 2 } [(1, 0x2), (2, 0x5)])
      fun s => { (s.setReg 2 0x50) with pc := 0x102 } :=
  by decide +kernel

theorem test_smr_H24 :
    runs (start 0x100 { ofSel 0x18C81 with r1 := 1, r2 := 2 } [(1, 0x3), (2, 0x5)])
      fun s => { (s.setReg 2 0x7) with pc := 0x102 } :=
  by decide +kernel

theorem test_clz_B1 :
    runs (start 0x100 { ofSel 0x20000 with r1 := 1, r2 := 2 } [(1, 0x10000)])
      fun s => { (s.setReg 2 0xf) with pc := 0x102 } :=
  by decide +kernel

theorem test_clz_B2 :
    runs (start 0x100 { ofSel 0x20000 with r2 := 2 } []) fun s => { (s.setReg 2 0x20) with pc := 0x102 } :=
  by decide +kernel

theorem test_ham_B4 :
    runs (start 0x100 { ofSel 0x20100 with r1 := 1, r2 := 2 } [(1, 0xf0f0f0f0)])
      fun s => { (s.setReg 2 0x10) with pc := 0x102 } :=
  by decide +kernel

theorem test_ham_B5 :
    runs (start 0x100 { ofSel 0x20100 with r2 := 2, imm := true, arg := 0xffffffff } [])
      fun s => { (s.setReg 2 0x20) with pc := 0x108 } :=
  by decide +kernel

theorem test_par_B6 :
    runs (start 0x100 { ofSel 0x20080 with r1 := 1, r2 := 2 } [(1, 0x7)])
      fun s => { (s.setReg 2 0x1) with pc := 0x102 } :=
  by decide +kernel

theorem test_par_B7 :
    runs (start 0x100 { ofSel 0x20080 with r1 := 1, r2 := 2 } [(1, 0x3)])
      fun s => { (s.setReg 2 0x0) with pc := 0x102 } :=
  by decide +kernel

theorem test_jmp_F3 :
    runs (start 0x100 { ofSel 0x30000 with r1 := 3, ndx := true, reg := true, arg := 0xfffffff0 } [(3, 0x40)])
      fun s => { s with pc := 0x30 } :=
  by decide +kernel

theorem test_jmp_F5 :
    runs (start 0x100 { ofSel 0x30000 with r1 := 3, reg := true } [(3, 0x201)])
      fun s => { s with pc := 0x201 } :=
  by decide +kernel

theorem test_csr_F35 :
    runs (start 0x100 { ofSel 0x30C00 with ndx := true, arg := 0x200 } [])
      fun s => { (s.setReg 14 0x108) with pc := 0x200 } :=
  by decide +kernel

theorem test_csr_F36 :
    runs (start 0x100 { ofSel 0x30C00 with r1 := 14, reg := true } [(14, 0x300)])
      fun s => { (s.setReg 14 0x102) with pc := 0x300 } :=
  by decide +kernel

theorem test_ret_F37 :
    runs (start 0x100 (ofSel 0x31000) [(14, 0x108)]) fun s => { s with pc := 0x108 } :=
  by decide +kernel

theorem test_bzf_F6 :
    runs { start 0x20e { ofSel 0x30600 with ndx := true, arg := 0x60 } [] with flags := ⟨true, false, false, false⟩ }
      fun s => { s with pc := 0x60 } :=
  by decide +kernel

theorem test_bzf_F7 :
    runs { start 0x20e { ofSel 0x30600 with ndx := true, arg := 0x60 } [] with flags := ⟨false, false, false, false⟩ }
      fun s => { s with pc := 0x214 } :=
  by decide +kernel

theorem test_beq_F8 :
    runs { start 0x20e { ofSel 0x30601 with ndx := true, arg := 0x60 } [] with flags := ⟨true, false, false, false⟩ }
      fun s => { s with pc := 0x60 } :=
  by decide +kernel

theorem test_beq_F9 :
    runs { start 0x20e { ofSel 0x30601 with ndx := true, arg := 0x60 } [] with flags := ⟨false, true, false, true⟩ }
      fun s => { s with pc := 0x214 } :=
  by decide +kernel

theorem test_bne_F10 :
    runs { start 0x20e { ofSel 0x30602 with ndx := true, arg := 0x60 } [] with flags := ⟨false, false, false, false⟩ }
      fun s => { s with pc := 0x60 } :=
  by decide +kernel

theorem test_bne_F11 :
    runs { start 0x20e { ofSel 0x30602 with ndx := true, arg := 0x60 } [] with flags := ⟨true, false, false, false⟩ }
      fun s => { s with pc := 0x214 } :=
  by decide +kernel

theorem test_blt_F13 :
    runs { start 0x20e { ofSel 0x30603 with ndx := true, arg := 0x60 } [] with flags := ⟨false, false, true, false⟩ }
      fun s => { s with pc := 0x60 } :=
  by decide +kernel

theorem test_blt_F14 :
    runs { start 0x20e { ofSel 0x30603 with ndx := true, arg := 0x60 } [] with flags := ⟨false, false, false, false⟩ }
      fun s => { s with pc := 0x214 } :=
  by decide +kernel

theorem test_ble_F15 :
    runs { start 0x20e { ofSel 0x30604 with ndx := true, arg := 0x60 } [] with flags := ⟨true, false, false, false⟩ }
      fun s => { s with pc := 0x60 } :=
  by decide +kernel

theorem test_ble_F16 :
    runs { start 0x20e { ofSel 0x30604 with ndx := true, arg := 0x60 } [] with flags := ⟨false, false, false, false⟩ }
      fun s => { s with pc := 0x214 } :=
  by decide +kernel

theorem test_bgt_F17 :
    runs { start 0x20e { ofSel 0x30605 with ndx := true, arg := 0x60 } [] with flags := ⟨false, false, false, false⟩ }
      fun s => { s with pc := 0x60 } :=
  by decide +kernel

theorem test_bgt_F18 :
    runs { start 0x20e { ofSel 0x30605 with ndx := true, arg := 0x60 } [] with flags := ⟨false, false, true, false⟩ }
      fun s => { s with pc := 0x214 } :=
  by decide +kernel

theorem test_bge_F19 :
    runs { start 0x20e { ofSel 0x30606 with ndx := true, arg := 0x60 } [] with flags := ⟨false, true, false, true⟩ }
      fun s => { s with pc := 0x214 } :=
  by decide +kernel

theorem test_bge_F20 :
    runs { start 0x20e { ofSel 0x30606 with ndx := true, arg := 0x60 } [] with flags := ⟨true, false, false, false⟩ }
      fun s => { s with pc := 0x60 } :=
  by decide +kernel

theorem test_bcf_F21 :
    runs { start 0x20e { ofSel 0x30607 with ndx := true, arg := 0x60 } [] with flags := ⟨false, true, false, true⟩ }
      fun s => { s with pc := 0x60 } :=
  by decide +kernel

theorem test_bcf_F22 :
    runs { start 0x20e { ofSel 0x30607 with ndx := true, arg := 0x60 } [] with flags := ⟨false, false, false, false⟩ }
      fun s => { s with pc := 0x214 } :=
  by decide +kernel

theorem test_bnc_F23 :
    runs { start 0x20e { ofSel 0x30608 with ndx := true, arg := 0x60 } [] with flags := ⟨false, false, false, false⟩ }
      fun s => { s with pc := 0x60 } :=
  by decide +kernel

theorem test_bof_F24 :
    runs { start 0x20e { ofSel 0x30609 with ndx := true, arg := 0x60 } [] with flags := ⟨false, false, true, false⟩ }
      fun s => { s with pc := 0x60 } :=
  by decide +kernel

theorem test_bof_F25 :
    runs { start 0x20e { ofSel 0x30609 with ndx := true, arg := 0x60 } [] with flags := ⟨false, false, false, false⟩ }
      fun s => { s with pc := 0x214 } :=
  by decide +kernel

theorem test_bno_F26 :
    runs { start 0x20e { ofSel 0x3060A with ndx := true, arg := 0x60 } [] with flags := ⟨false, true, false, true⟩ }
      fun s => { s with pc := 0x60 } :=
  by decide +kernel

theorem test_bsf_F27 :
    runs { start 0x20e { ofSel 0x3060B with ndx := true, arg := 0x60 } [] with flags := ⟨false, true, false, true⟩ }
      fun s => { s with pc := 0x60 } :=
  by decide +kernel

theorem test_bsf_F28 :
    runs { start 0x20e { ofSel 0x3060B with ndx := true, arg := 0x60 } [] with flags := ⟨false, false, false, false⟩ }
      fun s => { s with pc := 0x214 } :=
  by decide +kernel

theorem test_bns_F29 :
    runs { start 0x20e { ofSel 0x3060C with ndx := true, arg := 0x60 } [] with flags := ⟨false, false, false, false⟩ }
      fun s => { s with pc := 0x60 } :=
  by decide +kernel

theorem test_bns_F30 :
    runs { start 0x20e { ofSel 0x3060C with ndx := true, arg := 0x60 } [] with flags := ⟨false, true, false, true⟩ }
      fun s => { s with pc := 0x214 } :=
  by decide +kernel

theorem test_ldr_X3 :
    runs { start 0x100 { ofSel 0x38400 with r1 := 1, r2 := 1, reg := true } [(1, 0x2000)] with mem := word 0x2000 0xcafebabe }
      fun s => { (s.setReg 1 0xcafebabe) with pc := 0x102 } :=
  by decide +kernel

theorem test_ldr_X8 :
    runs { start 0x100 { ofSel 0x38400 with r1 := 1, reg := true } [(1, 0x2000)] with mem := word 0x2000 0x5 }
      fun s => { s with pc := 0x102 } :=
  by decide +kernel

theorem test_str_X9 :
    runs (start 0x100 { ofSel 0x38800 with r1 := 1, r2 := 2, ndx := true, reg := true, arg := 0x4 } [(1, 0xcafebabe), (2, 0x3000)])
      fun s => { s with mem := word 0x3004 0xcafebabe, pc := 0x108 } :=
  by decide +kernel

theorem test_str_X13 :
    faults
      (start 0x100 { ofSel 0x38800 with r1 := 1, r2 := 2, reg := true } [(1, 0x1), (2, 0x10000)]) (.accessFault 0x10000) :=
  by decide +kernel

theorem test_psh_X15 :
    runs (start 0x100 { ofSel 0x38C00 with r1 := 13 } [(13, 0x8000)])
      fun s => { (s.setReg 13 0x7ffc) with mem := word 0x7ffc 0x8000, pc := 0x102 } :=
  by decide +kernel

theorem test_psh_X16 :
    faults (start 0x100 { ofSel 0x38C00 with r1 := 1 } [(1, 0x5), (13, 0x1000)]) (.accessFault 0xffc) :=
  by decide +kernel

theorem test_pop_X19 :
    runs { start 0x100 { ofSel 0x38C80 with r1 := 13 } [(13, 0x7ffc)] with mem := word 0x7ffc 0x4000 }
      fun s => { (s.setReg 13 0x4000) with pc := 0x102 } :=
  by decide +kernel

theorem test_pop_X20 :
    faults (start 0x100 { ofSel 0x38C80 with r1 := 1 } [(13, 0x7ffc)]) (.unwrittenRead 0x7ffc) :=
  by decide +kernel

/-- RCL (S19): with CACHELINE free, the line holds the address. -/
theorem test_rcl_S19 : runsTo (start 0x100 { ofSel 0x01400 with r1 := 1, reg := true } [(1, 0x1234)])
    (fun t => t.pc == 0x102 && t.resv.isSome && t.reg 1 == 0x1234) = true := by decide +kernel

/-- RPC (S22): some word, drawn once. -/
theorem test_rpc_S22 : runsTo (start 0x100 { ofSel 0x02200 with r1 := 5 } [(4, 9)])
    (fun t => t.pc == 0x102 && t.draws == 1 && t.reg 4 == 9) = true := by decide +kernel

/-- STX (S25): some word at 0x4000, and nothing beside it. -/
theorem test_stx_S25 : runsTo (start 0x100 { ofSel 0x02A02 with r2 := 2, reg := true } [(2, 0x4000)])
    (fun t => t.pc == 0x102 && t.draws == 1 && t.mem.map Prod.fst == [0x4000, 0x4001, 0x4002, 0x4003]) = true := by
  decide +kernel

theorem test_stx_S26 :
    faults
      (start 0x100 { ofSel 0x02A02 with r2 := 2, reg := true } [(2, 0x4001)]) (.misalignedAccess 0x4001) :=
  by decide +kernel

/-- ZEX and SEX from the widths of the vectors A28 to A30. -/
theorem test_extensions_A28_A30 : zeroExtendFrom 8 0x123456F0 = 0xF0 ∧ signExtendFrom 8 0x123456F0 = 0xFFFFFFF0 ∧
    signExtendFrom 16 0x12348070 = 0xFFFF8070 := by decide

/-- ZEX, SEX and the instructions over an uninterpreted function run: `pc` and the other registers (R132,
R133, R147, R148, R183 to R185, R188, R189). -/
theorem test_uninterpreted_run :
    [ofSel 0x0B000, ofSel 0x0B400, ofSel 0x11C00, ofSel 0x12000, ofSel 0x20400, ofSel 0x20500, ofSel 0x20800,
      ofSel 0x20900, ofSel 0x21400, ofSel 0x21500].all (fun r =>
        runsTo (start 0x100 { r with r1 := 1, r2 := 2 } [(1, 3), (3, 4)])
          (fun t => t.pc == 0x102 && t.reg 3 == 4 && t.flags == ⟨false, false, false, false⟩)) = true := by
  decide +kernel

/-- The always refused instructions (S24, S27, S30, M23). -/
theorem test_refused_sys_multi :
    refuses (start 0x100 { ofSel 0x02601 with r1 := 3 } []) (.systemRegister 1) = true ∧
    refuses (start 0x100 { ofSel 0x02C00 with r1 := 1, reg := true } [(1, 0x1000)]) .translation = true ∧
    refuses (start 0x100 { ofSel 0x03800 with r1 := 1, reg := true } [(1, 0x1000)]) .translation = true ∧
    refuses (start 0x100 { ofSel 0x12400 with r1 := 1, r2 := 2 } [(1, 3)]) .reciprocal = true := by decide +kernel

theorem test_refused_bit : ([
    (0x21000, "CRC"), (0x21100, "CRC"), (0x21180, "ECC")
    ] : List (BitVec 19 × String)).all
      (fun p => refuses (start 0x100 (ofSel p.1) []) (.notDefined p.2)) = true := by decide +kernel

theorem test_refused_atom : ([
    (0x28000, "LDL"), (0x28080, "STL"), (0x28400, "BTC"), (0x28500, "BTS"), (0x28800, "XADD"),
    (0x28900, "XINC"), (0x28880, "XDEC"), (0x28C00, "CAS")
    ] : List (BitVec 19 × String)).all
      (fun p => refuses (start 0x100 (ofSel p.1) []) (.notDefined p.2)) = true := by decide +kernel

theorem test_refused_flow : ([
    (0x30100, "JMR"), (0x30800, "BEG"), (0x30900, "FIN"), (0x30A02, "MKF"), (0x30D00, "SYS"),
    (0x31400, "THR"), (0x31602, "THC"), (0x31500, "THW"), (0x31480, "THY"), (0x31100, "SRT"),
    (0x31080, "THX"), (0x31180, "IRT")
    ] : List (BitVec 19 × String)).all
      (fun p => refuses (start 0x100 (ofSel p.1) []) (.notDefined p.2)) = true := by decide +kernel

theorem test_refused_xfer : ([
    (0x38000, "CKR"), (0x38100, "CKW"), (0x38080, "CKX"), (0x38500, "LDN"), (0x38601, "LDC"),
    (0x38900, "STN"), (0x38A01, "STC"), (0x38D00, "PSM"), (0x38D80, "POM"), (0x39201, "IOC"),
    (0x39000, "IOP"), (0x39100, "IRD"), (0x39080, "IWR")
    ] : List (BitVec 19 × String)).all
      (fun p => refuses (start 0x100 (ofSel p.1) []) (.notDefined p.2)) = true := by decide +kernel

/-! ## The statements' hypotheses can be met

For every statement with hypotheses, a state and operands that meet them, at the boundary values where the
clauses meet. -/

/-- ADD R1, R2 at 0x100. -/
def addState : State := start 0x100 { ofSel 0x09C00 with r1 := 1, r2 := 2 } [(1, 5), (2, 1)]

/-- A state with the word 0x12345678 at 0x2000, which R1 points to, SP above it. -/
def memState : State :=
  { start 0x100 { ofSel 0x38400 with r1 := 1, r2 := 2, reg := true } [(1, 0x2000), (13, 0x2000)] with
    mem := word 0x2000 0x12345678 }

/-- A Bool that says an access is admitted. -/
theorem accessible_of {s : State} {a : Word} (h : (memCheck s a == none) = true) : accessible s a :=
  memCheck_eq_none_iff.1 (by simpa using h)

/-- A Bool that says a word is in memory. -/
theorem wordAt_of {m : Memory} {a v : Word} (h : ((List.range 4).all fun k =>
    memByte m (a.toNat + k) == some (v.extractLsb' (8 * k) 8)) = true) : wordAt m a v := by
  intro k hk
  simpa using List.all_eq_true.1 h k (List.mem_range.2 hk)

theorem witness_DecodeUndoesEncode : wellFormed (.rol 31 1 14) = true ∧
    wellFormed (.cli (some (.imm 3)) ⟨some 2, none⟩) = true := by decide

theorem witness_RecordBitsRoundTrip :
    ({ ofSel 0x11800 with imm := true }.sel &&& 0x7FF80 = madSel →
      { ofSel 0x11800 with imm := true }.imm = true) ∧
    (ofSel 0x09C00).sel &&& 0x7FF80 ≠ madSel := by decide

theorem witness_OpcodeRowsAreDisjoint : (∃ a ∈ opcodeTable, a.selects 0x7FFFF = true) ∧
    (∃ a ∈ opcodeTable, a.selects 0x3060C = true) := by decide +kernel

/-- For each clause a decoded record: NOP; no address, without and with an immediate; no optional operand; an
optional operand without an offset; no `ri1`, without an offset; MAD. -/
theorem witness_DecodedIsWellFormed :
    decode { ofSel 0x1801F with r1 := 1, r2 := 2 } = .ok (.shl 31 1 2) ∧
    decode (ofSel 0x7FFFF) = .ok .nop ∧
    (decode { ofSel 0x09C00 with r1 := 1, r2 := 2 } = .ok (.add (.reg 1) 2) ∧
      takesAdr (.add (.reg 1) 2) = false ∧ takesOpt (.add (.reg 1) 2) = false) ∧
    (decode { ofSel 0x09C00 with r2 := 2, imm := true, arg := 5 } = .ok (.add (.imm 5) 2) ∧
      takesAdr (.add (.imm 5) 2) = false) ∧
    (decode { ofSel 0x38400 with r2 := 2, ndx := true, arg := 8 } = .ok (.ldr ⟨none, some 8⟩ 2) ∧
      takesOpt (.ldr ⟨none, some 8⟩ 2) = false) ∧
    (decode { ofSel 0x00000 with p1 := true, r1 := 1 } = .ok (.hlt (some (.reg 1)) ⟨none, none⟩) ∧
      takesOpt (.hlt (some (.reg 1)) ⟨none, none⟩) = true) ∧
    (decode { ofSel 0x30000 with reg := true, r1 := 3 } = .ok (.jmp ⟨some 3, none⟩) ∧
      takesRi (.jmp ⟨some 3, none⟩) = false) ∧
    decode { ofSel 0x11800 with r1 := 1, r2 := 2, imm := true, arg := 7 } = .ok (.mad 7 1 2) := by
  decide +kernel

theorem witness_UnnamedSelectorsAreRefused :
    (8 ≤ (ofSel 0x40000).unit.toNat ∧ (ofSel 0x40000).sel ≠ nopSel) ∧
    (8 ≤ (ofSel 0x7FFFE).unit.toNat ∧ (ofSel 0x7FFFE).sel ≠ nopSel) ∧
    ((ofSel 0x20C00).unit = 4 ∧ (ofSel 0x20C00).op = 3) ∧
    ((ofSel 0x3060D).unit = 6 ∧ (ofSel 0x3060D).op = 1 ∧ 0x0C < (ofSel 0x3060D).val.toNat) ∧
    ((ofSel 0x18280).unit = 3 ∧ (ofSel 0x18280).op = 0 ∧ (ofSel 0x18280).val1 = true ∧
      (ofSel 0x18280).flag2 = true) := by decide

/-- Selectors on both sides of the line R77 draws, at its edges. -/
theorem test_named_selectors :
    [ofSel 0x7FFFF, ofSel 0x00000, ofSel 0x04400, ofSel 0x0B400, ofSel 0x12400, ofSel 0x18300, ofSel 0x3060C,
      ofSel 0x39200].all namedSelector = true ∧
    [ofSel 0x7FFFE, ofSel 0x04800, ofSel 0x0B800, ofSel 0x12800, ofSel 0x18280, ofSel 0x20C00, ofSel 0x3060D,
      ofSel 0x39280, ofSel 0x40000].any namedSelector = false := by decide +kernel

/-- For each format with a register field: a record whose operand field names R15 (`true`), and one where 15
stands in no operand field (`false`). -/
theorem witness_FieldFifteenIsRefused : ([
    ({ ofSel 0x00000 with r1 := 15, p1 := true }, true), ({ ofSel 0x00000 with r1 := 15, r2 := 15 }, false),
    ({ ofSel 0x00000 with r2 := 15, reg := true }, true),
    ({ ofSel 0x00000 with r1 := 15, p1 := true, imm := true }, false),
    ({ ofSel 0x00400 with r1 := 15 }, true), ({ ofSel 0x00601 with r1 := 15 }, false),
    ({ ofSel 0x01400 with r1 := 15, reg := true }, true), ({ ofSel 0x01400 with r1 := 15 }, false),
    ({ ofSel 0x02200 with r1 := 15 }, true), ({ ofSel 0x02200 with r2 := 15 }, false),
    ({ ofSel 0x02A00 with r2 := 15, reg := true }, true), ({ ofSel 0x02A00 with r1 := 15, r2 := 15 }, false),
    ({ ofSel 0x09C00 with r1 := 15 }, true), ({ ofSel 0x09C00 with r2 := 15 }, true),
    ({ ofSel 0x09C00 with r1 := 15, imm := true }, false), ({ ofSel 0x20500 with r1 := 15 }, true),
    ({ ofSel 0x20500 with r1 := 15, imm := true }, false),
    ({ ofSel 0x09400 with r1 := 15 }, true), ({ ofSel 0x09400 with r2 := 15 }, false),
    ({ ofSel 0x11C00 with r2 := 15 }, true), ({ ofSel 0x11C00 with r1 := 15, imm := true }, false),
    ({ ofSel 0x11204 with r1 := 15 }, true), ({ ofSel 0x11204 with r1 := 15, imm := true }, false),
    ({ ofSel 0x18004 with r1 := 15 }, true), ({ ofSel 0x18004 with r1 := 14, r2 := 14 }, false),
    ({ ofSel 0x11800 with r1 := 15, imm := true }, true), ({ ofSel 0x11800 with imm := true }, false),
    ({ ofSel 0x30602 with r1 := 15, reg := true }, true), ({ ofSel 0x30602 with r1 := 15, ndx := true }, false),
    ({ ofSel 0x38400 with r2 := 15 }, true), ({ ofSel 0x38400 with r1 := 15 }, false),
    ({ ofSel 0x38800 with r1 := 15 }, true), ({ ofSel 0x38800 with r2 := 15 }, false)
    ] : List (Record × Bool)).all (fun p => (rowOf p.1.sel).any fun row =>
      row.format.check p.1 == none && (usedRegs row.format p.1).contains 15 == p.2) = true := by
  decide +kernel

theorem witness_ArgumentParcelIsAligned : (0x100 : Word).toNat % 4 = 0 ∧ (0xFFFFFFFE : Word).toNat % 4 = 2 := by
  decide

theorem witness_StepRunsTheDecodedInstruction : addState.outcome = none ∧ deliverable addState = false ∧
    addState.halted = false ∧ addState.pc.toNat % 2 = 0 ∧
    textAt addState.text addState.pc = some { ofSel 0x09C00 with r1 := 1, r2 := 2 } ∧
    decode { ofSel 0x09C00 with r1 := 1, r2 := 2 } = .ok (.add (.reg 1) 2) ∧
    wfText addState.text = true := by decide +kernel

theorem witness_StepStopsInOrder :
    ({ addState with outcome := some .stuck }.outcome = some .stuck) ∧
    (addState.outcome = none ∧ { addState with imask := 4, ipend := 4 }.ipend &&& 4 ≠ 0) ∧
    (addState.ipend &&& addState.imask = 0 ∧ { addState with halted := true }.halted = true) ∧
    (addState.halted = false ∧ { addState with pc := 0x101 }.pc.toNat % 2 = 1) ∧
    (addState.pc.toNat % 2 = 0 ∧ textAt { addState with text := [] }.text addState.pc = none) ∧
    decode { ofSel 0x09400 with imm := true } = .error (.illFormed .imm) ∧
    decode { ofSel 0x09400 with r1 := 15 } = .error .pcOperand ∧
    decode (ofSel 0x7FFFF) = .ok .nop ∧
    wfText [(0xFC, { ofSel 0x09C00 with imm := true }), (0x100, ofSel 0x7FFFF)] = false := by
  decide +kernel

theorem witness_PlacedInstructionRunsNext : State.reset.outcome = none ∧ deliverable State.reset = false ∧
    State.reset.halted = false ∧ State.reset.pc.toNat % 2 = 0 ∧
    decodeTableWord 24 0x11800 = some (.mad 0 0 0) := by decide +kernel

theorem witness_EveryStepKeepsTheInvariant : Machine.Inv memState ∧ completes (step memState) = true := by
  unfold Machine.Inv; decide +kernel

/-- A next state of an instruction that is none of CMP, ADC, SBB, and of each of ADC and SBB. -/
theorem witness_OnlyCmpAdcSbbWriteFlags :
    ∀ i ∈ [Instr.add (.reg 1) 2, .adc (.reg 1) 2, .sbb (.reg 1) 2], exec i addState = .next (after i addState) := by
  intro i hi
  refine exec_after ?_
  revert i
  decide +kernel

theorem witness_GoesOnUnlessItTransfers :
    exec (.beq ⟨none, some 0x60⟩) addState = .next (after (.beq ⟨none, some 0x60⟩) addState) ∧
    transfers addState.flags (.beq ⟨none, some 0x60⟩) = false ∧ endsRun (.beq ⟨none, some 0x60⟩) = false :=
  ⟨exec_after (by decide +kernel), by decide, by decide⟩

theorem witness_ProgramMapAndModeAreFixed : completes (step addState) = true := by decide +kernel

theorem witness_SystemStateHasFewWriters :
    ∀ i ∈ [Instr.nop, .hlt none ⟨none, none⟩, .sti none ⟨none, none⟩, .int (.val 31), .rcl ⟨none, none⟩, .wfe 0],
      exec i { addState with ipend := 1 } = .next (after i { addState with ipend := 1 }) := by
  intro i hi
  refine exec_after ?_
  revert i
  decide +kernel

/-- A step that goes on, one that faults and one that is refused. -/
theorem witness_ReservationIsUnobservable : completes (step addState) = true ∧
    faults { addState with pc := 0x101 } (.misalignedFetch 0x101) = true ∧
    refuses { addState with text := [] } .noInstruction = true := by decide +kernel

theorem witness_WordReadsBackAfterWrite :
    (∃ t, memWrite memState 0x1000 7 = .ok t) ∧ (∃ t, memWrite memState 0xFFFC 7 = .ok t) :=
  ⟨⟨_, memWrite_runs (accessible_of (by decide +kernel)) 7⟩,
    ⟨_, memWrite_runs (accessible_of (by decide +kernel)) 7⟩⟩

/-- An address for each clause: unaligned, in the text, outside `MemMap`, without a value, readable. -/
theorem witness_WordAccessChecksInOrder :
    (0x2001 : Word).toNat % 4 ≠ 0 ∧
    ((0x100 : Word).toNat % 4 = 0 ∧ ∃ x ∈ wordAddrs 0x100, inText memState.text x = true) ∧
    ((0x10000 : Word).toNat % 4 = 0 ∧ (∀ x ∈ wordAddrs 0x10000, inText memState.text x = false) ∧
      ∃ x ∈ wordAddrs 0x10000, inMemMap memState.memMap x = false) ∧
    (accessible memState 0xFFFC ∧ ∃ k, k < 4 ∧ memByte memState.mem ((0xFFFC : Word).toNat + k) = none) ∧
    (accessible memState 0x2000 ∧ wordAt memState.mem 0x2000 0x12345678) := by
  have h : (wordAddrs 0x10000).all (fun x => inText memState.text x == false) = true := by decide +kernel
  exact ⟨by decide, ⟨by decide, 0x100, by decide, by decide +kernel⟩,
    ⟨by decide, fun x hx => by simpa using List.all_eq_true.1 h x hx, 0x10000, by decide, by decide +kernel⟩,
    ⟨accessible_of (by decide +kernel), 0, by decide +kernel⟩,
    accessible_of (by decide +kernel), wordAt_of (by decide +kernel)⟩

theorem witness_NopOnlyAdvances : { ofSel 0x7FFFF with r1 := 15, imm := true, ndx := true }.sel = 0x7FFFF := by
  decide

theorem witness_MaskInstructionsSaveTheOldMask :
    adrPresent ⟨some 1, none⟩ = true ∧ twoArgs (some (.imm 3)) ⟨some 1, none⟩ = false ∧
    accessible memState (eaOf memState ⟨some 1, none⟩) :=
  ⟨by decide, by decide, accessible_of (by decide +kernel)⟩

theorem witness_MaskInstructionsStop : twoArgs (some (.imm 3)) ⟨none, some 4⟩ = true ∧
    (twoArgs (some (.reg 3)) ⟨none, some 0x10000⟩ = false ∧ adrPresent ⟨none, some 0x10000⟩ = true ∧
      memWrite memState (eaOf memState ⟨none, some 0x10000⟩) memState.imask =
        .error (.fault (.accessFault 0x10000))) :=
  ⟨by decide, by decide, by decide, by decide +kernel⟩

theorem witness_IntMakesPending : (vrOf addState (.val 31)).toNat < 32 ∧ 32 ≤ (vrOf addState (.val 32)).toNat := by
  decide +kernel

theorem witness_ZeroRegisterReadsZero : srcOf addState (.reg 0) = 0 ∧
    memRead addState (eaOf addState ⟨none, some 0x1000⟩) = .error (.fault (.unwrittenRead 0x1000)) :=
  ⟨by decide +kernel, by decide +kernel⟩

theorem witness_StxStoresOneWord : accessible memState (eaOf memState ⟨some 1, none⟩) ∧
    memWrite memState (eaOf memState ⟨some 1, some 1⟩) memState.drawn =
      .error (.fault (.misalignedAccess 0x2001)) :=
  ⟨accessible_of (by decide +kernel), memWrite_eq_error.2 (by decide +kernel)⟩

theorem witness_CmpThenBranchCompares :
    exec (.cmp (.reg 1) 2) addState = .next (after (.cmp (.reg 1) 2) addState) :=
  exec_after (by decide +kernel)

theorem witness_MulAndMadKeepLowWord : (ofSel 0x11800).sel = 0x11800 ∧ (ofSel 0x11800).imm = false := by decide

theorem witness_DivAndRemPairUp : (srcOf addState (.imm 0xFFFFFFFF)).toInt ≠ 0 ∧
    ¬ ((addState.reg 2).toInt = -2 ^ 31 ∧ (srcOf addState (.imm 0xFFFFFFFF)).toInt = -1) := by decide +kernel

theorem witness_DivAndRemFault : srcOf addState (.reg 0) = 0 ∧
    ((addState.setReg 2 0x80000000).reg 2).toInt = -2 ^ 31 ∧
    (srcOf (addState.setReg 2 0x80000000) (.imm 0xFFFFFFFF)).toInt = -1 := by decide +kernel

theorem witness_UnhashUndoesHash :
    (exec (.hsh (.reg 1) 2) addState = .next (after (.hsh (.reg 1) 2) addState) ∧
      exec (.hun (.reg 2) 3) (after (.hsh (.reg 1) 2) addState) =
        .next (after (.hun (.reg 2) 3) (after (.hsh (.reg 1) 2) addState))) ∧
    (exec (.hun (.reg 1) 2) addState = .next (after (.hun (.reg 1) 2) addState) ∧
      exec (.hsh (.reg 2) 3) (after (.hun (.reg 1) 2) addState) =
        .next (after (.hsh (.reg 2) 3) (after (.hun (.reg 1) 2) addState))) ∧
    (2 : Reg) ≠ 0 ∧ (3 : Reg) ≠ 0 :=
  ⟨⟨exec_after (by decide +kernel), exec_after (by decide +kernel)⟩,
    ⟨exec_after (by decide +kernel), exec_after (by decide +kernel)⟩, by decide, by decide⟩

/-- The counts of ShiftsAsArithmetic, RotatesBringTheBitsBack and FusedShiftsTruncate. -/
theorem witness_ShiftsAsArithmetic : (31 : Val).toNat ≤ 31 ∧ (0 : Val).toNat ≤ 31 := by decide

theorem witness_RotatesBringTheBitsBack : (31 : Val).toNat ≤ 31 ∧ 1 ≤ (31 : Val).toNat ∧
    (31 : Val).toNat + (1 : Val).toNat = 32 := by decide

theorem witness_FusedShiftsTruncate : (31 : Val).toNat ≤ 31 := by decide

theorem witness_LargeCountsAreRefused : shiftCount? (.msr 32 1 2) = some 32 ∧ 31 < (32 : Val).toNat ∧
    shiftCount? (.smr 127 (.imm 0) 2) = some 127 := by decide

theorem witness_ReturnFollowsTheCall :
    exec (.csr ⟨none, some 0x200⟩) addState = .next (after (.csr ⟨none, some 0x200⟩) addState) ∧
    exec .ret (after (.csr ⟨none, some 0x200⟩) addState) =
      .next (after .ret (after (.csr ⟨none, some 0x200⟩) addState)) :=
  ⟨exec_after (by decide +kernel), exec_after (by decide +kernel)⟩

theorem witness_LdrLoadsTheWord : accessible memState (eaOf memState ⟨some 1, none⟩) ∧
    wordAt memState.mem (eaOf memState ⟨some 1, none⟩) 0x12345678 ∧
    memRead memState (eaOf memState ⟨some 1, some 4⟩) = .error (.fault (.unwrittenRead 0x2004)) :=
  ⟨accessible_of (by decide +kernel), wordAt_of (by decide +kernel), by decide +kernel⟩

theorem witness_StrStoresTheWord : accessible memState (eaOf memState ⟨none, some 0xFFFC⟩) ∧
    memWrite memState (eaOf memState ⟨none, some 0x10000⟩) 5 = .error (.fault (.accessFault 0x10000)) :=
  ⟨accessible_of (by decide +kernel), by decide +kernel⟩

theorem witness_PshStoresBelowSp : accessible memState (memState.reg spReg - 4) ∧
    memWrite (memState.setReg spReg 0x1000) ((memState.setReg spReg 0x1000).reg spReg - 4) 5 =
      .error (.fault (.accessFault 0xFFC)) :=
  ⟨accessible_of (by decide +kernel), by decide +kernel⟩

theorem witness_PopLoadsAtSp : accessible memState (memState.reg spReg) ∧
    wordAt memState.mem (memState.reg spReg) 0x12345678 ∧
    memRead (memState.setReg spReg 0x2004) 0x2004 = .error (.fault (.unwrittenRead 0x2004)) :=
  ⟨accessible_of (by decide +kernel), wordAt_of (by decide +kernel), by decide +kernel⟩

theorem witness_PopUndoesPsh : exec (.psh 1) memState = .next (after (.psh 1) memState) ∧
    (2 : Reg) ≠ 0 ∧ (2 : Reg) ≠ spReg :=
  ⟨exec_after (by decide +kernel), by decide, by decide⟩

theorem witness_SavedMaskIsRestored :
    let s := { memState with imask := 5 }
    let t := after (.cli none ⟨none, some 0x3000⟩) s
    let u := after (.ldr ⟨none, some 0x3000⟩ 2) t
    exec (.cli none ⟨none, some 0x3000⟩) s = .next t ∧ exec (.ldr ⟨none, some 0x3000⟩ 2) t = .next u ∧
      exec (.sti (some (.reg 2)) ⟨none, none⟩) u = .next (after (.sti (some (.reg 2)) ⟨none, none⟩) u) :=
  ⟨exec_after (by decide +kernel), exec_after (by decide +kernel), exec_after (by decide +kernel)⟩

end Sys2Proof.Tests
end

/-! ## The argument parcel's address -/

section
namespace Sys2Proof.Machine

/-- An argument parcel is aligned to 32 bits (R48), whatever `pc` is. -/
theorem argAddr_toNat_mod_four (pc : Word) : (argAddr pc).toNat % 4 = 0 := by
  rw [toNat_argAddr]
  exact Nat.mul_mod_left _ _

/-- After an instruction parcel in the low half of a 32-bit word, the next aligned address is that of
the following word, modulo 2^32. -/
theorem argAddr_of_mod_four_eq_zero {pc : Word} (h : pc.toNat % 4 = 0) : argAddr pc = pc + 4 := by
  apply BitVec.eq_of_toNat_eq
  rw [toNat_argAddr, BitVec.toNat_add, show (4 : Word).toNat = 4 from rfl]
  omega

/-- After an instruction parcel in the high half of a 32-bit word, the argument parcel follows at once,
modulo 2^32. -/
theorem argAddr_of_mod_four_eq_two {pc : Word} (h : pc.toNat % 4 = 2) : argAddr pc = pc + 2 := by
  apply BitVec.eq_of_toNat_eq
  rw [toNat_argAddr, BitVec.toNat_add, show (2 : Word).toNat = 2 from rfl]
  omega

/-- Settles O8: the alignment and the two residues of an even `pc` modulo 4. -/
theorem argumentParcelIsAligned : Obligations.ArgumentParcelIsAligned := fun pc _ =>
  ⟨argAddr_toNat_mod_four pc, argAddr_of_mod_four_eq_two, argAddr_of_mod_four_eq_zero⟩

end Sys2Proof.Machine
end

/-! ## The selector word of an encoded record -/

section
namespace Sys2Proof.Laws

/-- The mask of a row that leaves `val` free keeps the unit, the operation and the flag bits (R75). -/
theorem sel_and_mask (w : Record) : w.sel &&& 0x7FF80 = { w with val := 0 }.sel := by
  have hmask : (0x7FF80 : BitVec 19) = BitVec.allOnes 12 ++ 0#7 := by decide
  have hval : w.val &&& 0#7 = 0 := BitVec.and_zero
  unfold Record.sel
  rw [hmask, BitVec.and_append, BitVec.and_allOnes, hval]

/-- `val` does not take part in which row a fresh record selects. -/
theorem fieldsOf_sel_and_mask (u : BitVec 4) (o : BitVec 5) (f : BitVec 3) (v : Val) :
    (fieldsOf u o f v).sel &&& 0x7FF80 = (fieldsOf u o f 0).sel := sel_and_mask _

/-- A rotate's record selects the instruction's row, whatever its count and its registers (R77). -/
theorem encode_rol_sel (v : Val) (r d : Reg) : (encode (.rol v r d)).sel &&& 0x7FF80 = 0x18200 :=
  (fieldsOf_sel_and_mask 3 0 0b100 v).trans (by decide)

theorem encode_ror_sel (v : Val) (r d : Reg) : (encode (.ror v r d)).sel &&& 0x7FF80 = 0x18300 :=
  (fieldsOf_sel_and_mask 3 0 0b110 v).trans (by decide)

end Sys2Proof.Laws
end

/-! ## Rotates -/

section
namespace Sys2Proof.Machine

/-- The model's rotates are the library's, the copy by a count of 0 included. -/
theorem rotl_eq_rotateLeft (x : Word) {n : Nat} (hn : n ≤ 31) : rotl x n = x.rotateLeft n := by
  rw [BitVec.rotateLeft_def, Nat.mod_eq_of_lt (by omega), rotl]
  split
  · next h => subst h; simp [BitVec.ushiftRight_eq_zero]
  · rfl

theorem rotr_eq_rotateRight (x : Word) {n : Nat} (hn : n ≤ 31) : rotr x n = x.rotateRight n := by
  rw [BitVec.rotateRight_def, Nat.mod_eq_of_lt (by omega), rotr]
  split
  · next h => subst h; simp
  · rfl

/-- The bits of a left rotate: the `n` lowest come from the top, the others from `n` places
below (R163). -/
theorem getLsbD_rotl (x : Word) {n k : Nat} (hn : n ≤ 31) (hk : k < 32) :
    (rotl x n).getLsbD k = x.getLsbD ((k + 32 - n) % 32) := by
  rw [rotl_eq_rotateLeft x hn, BitVec.getLsbD_rotateLeft_of_le (by omega)]
  by_cases h : k < n
  · have hidx : 32 - n + k = (k + 32 - n) % 32 := by omega
    simp [h, hidx]
  · have hidx : k - n = (k + 32 - n) % 32 := by omega
    simp [h, hk, hidx]

/-- The bits of a right rotate: the `n` highest come from the bottom, the others from `n` places
above (R164). -/
theorem getLsbD_rotr (x : Word) {n k : Nat} (hn : n ≤ 31) (hk : k < 32) :
    (rotr x n).getLsbD k = x.getLsbD ((k + n) % 32) := by
  rw [rotr_eq_rotateRight x hn, BitVec.getLsbD_rotateRight_of_lt (by omega)]
  by_cases h : k < 32 - n
  · have hidx : n + k = (k + n) % 32 := by omega
    simp [h, hidx]
  · have hidx : k - (32 - n) = (k + n) % 32 := by omega
    simp [h, hk, hidx]

/-- Counts that add up to the word's width rotate to the same word: the two shifted parts are the same. -/
theorem rotr_eq_rotl_of_add (x : Word) {m n : Nat} (hm : 1 ≤ m) (hn : 1 ≤ n) (h : m + n = 32) :
    rotr x m = rotl x n := by
  obtain rfl : n = 32 - m := by omega
  rw [rotr, rotl, if_neg (by omega), if_neg (by omega), Nat.sub_sub_self (by omega), BitVec.or_comm]

/-- A rotate by an admitted count is a register result. -/
theorem exec_rol (v : Val) (r d : Reg) (s : State) (hv : v.toNat ≤ 31) :
    exec (.rol v r d) s = toReg d (rotl (s.reg r) v.toNat) s := by
  rw [show exec (.rol v r d) s = execRol v r d s from rfl, execRol, withCount_runs hv]

theorem exec_ror (v : Val) (r d : Reg) (s : State) (hv : v.toNat ≤ 31) :
    exec (.ror v r d) s = toReg d (rotr (s.reg r) v.toNat) s := by
  rw [show exec (.ror v r d) s = execRor v r d s from rfl, execRor, withCount_runs hv]

/-- Settles O47: each rotate selects its row, its result is `rotl` or `rotr` of its operand, whose bits
are known, and a right rotate is the left one by the rest of the width. -/
theorem rotatesBringTheBitsBack : Obligations.RotatesBringTheBitsBack := by
  intro s v r d hv
  refine ⟨?_, fun w h1 h32 => ?_⟩
  · simp only [List.forall_mem_cons, List.not_mem_nil, false_implies, implies_true, and_true]
    refine ⟨⟨?_, rfl, ?_⟩, ?_, rfl, ?_⟩
    · exact Laws.encode_rol_sel v r d
    · obtain ⟨t, ht, hw⟩ := toReg_completes d (rotl (s.reg r) v.toNat) s
      exact ⟨t, _, (exec_rol v r d s hv).trans ht, hw, fun _ hk => getLsbD_rotl _ hv hk⟩
    · exact Laws.encode_ror_sel v r d
    · obtain ⟨t, ht, hw⟩ := toReg_completes d (rotr (s.reg r) v.toNat) s
      exact ⟨t, _, (exec_ror v r d s hv).trans ht, hw, fun _ hk => getLsbD_rotr _ hv hk⟩
  · rw [exec_ror v r d s hv, exec_rol w r d s (by omega), rotr_eq_rotl_of_add _ h1 (by omega) h32]

end Sys2Proof.Machine
end

/-! ## The rows of the opcode table -/

section
namespace Sys2Proof.Laws

open Sys2Proof.Machine

/-- Two rows ask for different values of a bit that both their masks keep. -/
def rowsClash (a b : Row) : Bool := (a.pattern ^^^ b.pattern) &&& (a.mask &&& b.mask) != 0

/-- Rows that clash have no selector word in common: where both masks keep a bit, both patterns have
the word's own bit. -/
theorem not_selects_of_rowsClash {a b : Row} {s : BitVec 19} (h : rowsClash a b = true)
    (ha : a.selects s = true) : b.selects s = false := by
  rw [Bool.eq_false_iff]
  intro hb
  simp only [Row.selects, beq_iff_eq] at ha hb
  simp only [rowsClash, bne_iff_ne, ne_eq, ← ha, ← hb] at h
  refine h (BitVec.eq_of_getLsbD_eq fun i _ => ?_)
  simp only [BitVec.getLsbD_and, BitVec.getLsbD_xor]
  cases s.getLsbD i <;> cases a.mask.getLsbD i <;> simp

/-- Any two rows of the opcode table clash (R75, R77). -/
theorem opcodeTable_rowsClash : opcodeTable.Pairwise fun a b => rowsClash a b = true := by
  decide +kernel

/-- In a list of rows that clash, a row that selects the word is the one found. -/
theorem find?_selects_of_rowsClash {t : List Row} (ht : t.Pairwise fun a b => rowsClash a b = true)
    {row : Row} {s : BitVec 19} (hm : row ∈ t) (hs : row.selects s = true) :
    t.find? (fun row => row.selects s) = some row := by
  induction t with
  | nil => cases hm
  | cons a t ih =>
    obtain ⟨hclash, ht⟩ := List.pairwise_cons.1 ht
    rcases List.mem_cons.1 hm with rfl | hm
    · exact List.find?_cons_of_pos hs
    · have ha : a.selects s = false := by
        cases h : a.selects s with
        | false => rfl
        | true => rw [not_selects_of_rowsClash (hclash row hm) h] at hs; cases hs
      rw [List.find?_cons_of_neg (by simp [ha])]
      exact ih ht hm

/-- The row of a selector word is any row of the table that selects it. -/
theorem rowOf_eq_some_iff {s : BitVec 19} {row : Row} :
    rowOf s = some row ↔ row ∈ opcodeTable ∧ row.selects s = true :=
  ⟨fun h => ⟨List.mem_of_find?_eq_some h, List.find?_some (p := fun row : Row => row.selects s) h⟩,
    fun ⟨hm, hs⟩ => find?_selects_of_rowsClash opcodeTable_rowsClash hm hs⟩

/-- Two selector words that agree in the bits a row's mask keeps select the same row. -/
theorem rowOf_of_agree {s p : BitVec 19} {row : Row} (hp : rowOf p = some row)
    (h : s &&& row.mask = p &&& row.mask) : rowOf s = some row := by
  obtain ⟨hm, hs⟩ := rowOf_eq_some_iff.1 hp
  refine rowOf_eq_some_iff.2 ⟨hm, ?_⟩
  simpa only [Row.selects, h] using hs

/-- Settles O3: the rows of the table clash pairwise, so the row a word selects is one. -/
theorem opcodeRowsAreDisjoint : Obligations.OpcodeRowsAreDisjoint := by
  intro s a ha b hb hsa hsb
  have hrow : some a = some b :=
    (rowOf_eq_some_iff.2 ⟨ha, hsa⟩).symm.trans (rowOf_eq_some_iff.2 ⟨hb, hsb⟩)
  cases hrow
  rfl

/-! ### The decoder through its row -/

/-- A record that passes the checks of its row is read by the row's format. -/
theorem decode_of_check_none {r : Record} {row : Row} (hrow : rowOf r.sel = some row)
    (hc : row.format.check r = none) : decode r = row.format.read r := by
  simp only [decode, hrow, hc]

/-- A record that fails a check of its row is refused by it. -/
theorem decode_of_check_some {r : Record} {row : Row} {c : WfCheck} (hrow : rowOf r.sel = some row)
    (hc : row.format.check r = some c) : decode r = .error (.illFormed c) := by
  simp only [decode, hrow, hc]

/-- A record no row selects is refused by WF_SELECTOR (R78). -/
theorem decode_of_rowOf_none {r : Record} (hrow : rowOf r.sel = none) :
    decode r = .error (.illFormed .selector) := by
  simp only [decode, hrow]

/-- Everything the decoder can do when it accepts: a row selects the record, its checks pass and its
format reads the instruction. -/
theorem decode_eq_ok {r : Record} {i : Instr} :
    decode r = .ok i ↔ ∃ row, rowOf r.sel = some row ∧ row.format.check r = none ∧
      row.format.read r = .ok i := by
  cases hrow : rowOf r.sel with
  | none => simp [decode_of_rowOf_none hrow]
  | some row =>
    cases hc : row.format.check r with
    | some c => simp [decode_of_check_some hrow hc, hc]
    | none => simp [decode_of_check_none hrow hc, hc]

end Sys2Proof.Laws
end


/-! ## Decoding what the encoder writes -/

section
namespace Sys2Proof.Laws

open Sys2Proof.Machine

/-! ### The selector word and the register fields of an encoded record -/

@[simp] theorem putR1_sel (r : Reg) (w : Record) : (putR1 r w).sel = w.sel := rfl
@[simp] theorem putR2_sel (r : Reg) (w : Record) : (putR2 r w).sel = w.sel := rfl
@[simp] theorem putArg_sel (i : Word) (w : Record) : (putArg i w).sel = w.sel := rfl
@[simp] theorem putSrc_sel (src : RI) (w : Record) : (putSrc src w).sel = w.sel := by
  cases src <;> rfl
@[simp] theorem putOpt_sel (m : Option RI) (w : Record) : (putOpt m w).sel = w.sel := by
  rcases m with _ | (_ | _) <;> rfl
@[simp] theorem putAdr1_sel (a : Adr) (w : Record) : (putAdr1 a w).sel = w.sel := by
  rcases a with ⟨_ | _, _ | _⟩ <;> rfl
@[simp] theorem putAdr2_sel (a : Adr) (w : Record) : (putAdr2 a w).sel = w.sel := by
  rcases a with ⟨_ | _, _ | _⟩ <;> rfl

@[simp] theorem putR1_val (r : Reg) (w : Record) : (putR1 r w).val = w.val := rfl
@[simp] theorem putR2_val (r : Reg) (w : Record) : (putR2 r w).val = w.val := rfl
@[simp] theorem putSrc_val (src : RI) (w : Record) : (putSrc src w).val = w.val := by
  cases src <;> rfl
@[simp] theorem putAdr1_val (a : Adr) (w : Record) : (putAdr1 a w).val = w.val := by
  rcases a with ⟨_ | _, _ | _⟩ <;> rfl
@[simp] theorem fieldsOf_val (u : BitVec 4) (o : BitVec 5) (f : BitVec 3) (v : Val) :
    (fieldsOf u o f v).val = v := rfl

/-- The mask of RST and INT leaves VAL and `val` free (R77). -/
theorem sel_and_mask_vr (w : Record) : w.sel &&& 0x7FD80 = { w with val1 := false, val := 0 }.sel := by
  have hmask : (0x7FD80 : BitVec 19) =
      BitVec.allOnes 9 ++ 0#1 ++ BitVec.allOnes 1 ++ BitVec.allOnes 1 ++ 0#7 := by decide
  have hval1 : BitVec.ofBool w.val1 &&& 0#1 = 0#1 := BitVec.and_zero
  have hval : w.val &&& 0#7 = 0 := BitVec.and_zero
  unfold Record.sel
  rw [hmask, BitVec.and_append, BitVec.and_append, BitVec.and_append, BitVec.and_append,
    BitVec.and_allOnes, BitVec.and_allOnes, BitVec.and_allOnes, hval, hval1]
  rfl

/-- The mask of SWP and CRC leaves FLAG1 and `val` free (R183, R186). -/
theorem sel_and_mask_flag1 (w : Record) :
    w.sel &&& 0x7FE80 = { w with flag1 := false, val := 0 }.sel := by
  have hmask : (0x7FE80 : BitVec 19) = BitVec.allOnes 10 ++ 0#1 ++ BitVec.allOnes 1 ++ 0#7 := by decide
  have hflag1 : BitVec.ofBool w.flag1 &&& 0#1 = 0#1 := BitVec.and_zero
  have hval : w.val &&& 0#7 = 0 := BitVec.and_zero
  unfold Record.sel
  rw [hmask, BitVec.and_append, BitVec.and_append, BitVec.and_append, BitVec.and_allOnes,
    BitVec.and_allOnes, hval, hflag1]
  rfl

/-- The field that names a register is read as that register. -/
@[simp] theorem regOf_fieldOf (r : Reg) : regOf (fieldOf r) = .ok r := by
  have h : (fieldOf r).toNat = r.val := by
    simp only [fieldOf, BitVec.toNat_ofNat]
    exact Nat.mod_eq_of_lt (by omega)
  unfold regOf
  rw [dif_pos (by omega)]
  simp [h]

/-! ### A record of each format

One lemma for each format of R68: the record with the format's operands put into it selects the row of its
selector fields, passes the checks and is read as the operands. -/

/-- Where a record passes the checks with `val` 0, the checks of `val` are what is left. -/
theorem check_of_val_zero {f : Format} {r : Record} (hf : f.whole = false)
    (h : f.check { r with val := 0 } = none) :
    f.check r = if f.hasCount && !goodCount r.val then some .shift
      else if f.hasCond && 0x0C < r.val.toNat then some .cond else none := by
  unfold Format.check at h ⊢
  simp only [hf, Bool.false_eq_true, if_false] at h ⊢
  split at h <;> [cases h; skip]
  split at h <;> [cases h; skip]
  split at h <;> [cases h; skip]
  split at h <;> [cases h; skip]
  simp only [*, if_false, Bool.false_eq_true]

section
variable {u : BitVec 4} {o : BitVec 5} {f : BitVec 3} {v : Val} {m : String} {p mask : BitVec 19}

theorem decode_none {k : Instr} (h : rowOf (fieldsOf u o f v).sel = some ⟨m, p, mask, .none k⟩) :
    decode (fieldsOf u o f v) = .ok k :=
  decode_of_check_none h rfl

theorem decode_unknown {k : Instr} (h : rowOf (fieldsOf u o f v).sel = some ⟨m, p, mask, .unknown k⟩) :
    decode (fieldsOf u o f v) = .ok k :=
  decode_of_check_none h rfl

theorem decode_r {k : Reg → Instr} (h : rowOf (fieldsOf u o f v).sel = some ⟨m, p, mask, .r k⟩)
    (r : Reg) : decode (putR1 r (fieldsOf u o f v)) = .ok (k r) := by
  refine decode_eq_ok.2 ⟨_, h, rfl, ?_⟩
  simp [Format.read, putR1]

theorem decode_adr {k : Adr → Instr} (h : rowOf (fieldsOf u o f v).sel = some ⟨m, p, mask, .adr k⟩)
    (a : Adr) : decode (putAdr1 a (fieldsOf u o f v)) = .ok (k a) := by
  refine decode_eq_ok.2 ⟨_, by simpa using h, ?_, ?_⟩
  · rcases a with ⟨_ | _, _ | _⟩ <;> rfl
  · rcases a with ⟨_ | _, _ | _⟩ <;>
      simp [Format.read, readAdr, putAdr1, putOff, putR1, fieldsOf, Except.map]

theorem decode_condAdr {k : Adr → Instr}
    (h : rowOf (fieldsOf u o f v).sel = some ⟨m, p, mask, .condAdr k⟩) (hv : v.toNat ≤ 0x0C) (a : Adr) :
    decode (putAdr1 a (fieldsOf u o f v)) = .ok (k a) := by
  refine decode_eq_ok.2 ⟨_, by simpa using h, ?_, ?_⟩
  · rw [check_of_val_zero rfl (by rcases a with ⟨_ | _, _ | _⟩ <;> rfl)]
    simp [Format.hasCount, hv]
  · rcases a with ⟨_ | _, _ | _⟩ <;>
      simp [Format.read, readAdr, putAdr1, putOff, putR1, fieldsOf, Except.map]

theorem decode_adrR {k : Adr → Reg → Instr}
    (h : rowOf (fieldsOf u o f v).sel = some ⟨m, p, mask, .adrR k⟩) (a : Adr) (d : Reg) :
    decode (putAdr1 a (putR2 d (fieldsOf u o f v))) = .ok (k a d) := by
  refine decode_eq_ok.2 ⟨_, by simpa using h, ?_, ?_⟩
  · rcases a with ⟨_ | _, _ | _⟩ <;> rfl
  · rcases a with ⟨_ | _, _ | _⟩ <;>
      simp [Format.read, readAdr, putAdr1, putOff, putR1, putR2, fieldsOf, Except.map] <;> rfl

theorem decode_rAdr {k : Reg → Adr → Instr}
    (h : rowOf (fieldsOf u o f v).sel = some ⟨m, p, mask, .rAdr k⟩) (r : Reg) (a : Adr) :
    decode (putR1 r (putAdr2 a (fieldsOf u o f v))) = .ok (k r a) := by
  refine decode_eq_ok.2 ⟨_, by simpa using h, ?_, ?_⟩
  · rcases a with ⟨_ | _, _ | _⟩ <;> rfl
  · rcases a with ⟨_ | _, _ | _⟩ <;>
      simp [Format.read, readAdr, putAdr2, putOff, putR1, putR2, fieldsOf, Except.map] <;> rfl

theorem decode_riR {k : RI → Reg → Instr}
    (h : rowOf (fieldsOf u o f v).sel = some ⟨m, p, mask, .riR k⟩) (src : RI) (d : Reg) :
    decode (putSrc src (putR2 d (fieldsOf u o f v))) = .ok (k src d) := by
  refine decode_eq_ok.2 ⟨_, by simpa using h, ?_, ?_⟩
  · cases src <;> rfl
  · cases src <;> simp [Format.read, readSrc, putSrc, putR1, putR2, putArg, fieldsOf] <;> rfl

theorem decode_ri {k : RI → Reg → Instr}
    (h : rowOf (fieldsOf u o f v).sel = some ⟨m, p, mask, .ri k⟩) (src : RI) (d : Reg) :
    decode (putSrc src (putR2 d (fieldsOf u o f v))) = .ok (k src d) := by
  refine decode_eq_ok.2 ⟨_, by simpa using h, ?_, ?_⟩
  · cases src <;> rfl
  · cases src <;> simp [Format.read, readSrc, putSrc, putR1, putR2, putArg, fieldsOf] <;> rfl

theorem decode_iRR {k : Word → Reg → Reg → Instr}
    (h : rowOf (fieldsOf u o f v).sel = some ⟨m, p, mask, .iRR k⟩) (i : Word) (r d : Reg) :
    decode (putArg i (putR1 r (putR2 d (fieldsOf u o f v)))) = .ok (k i r d) := by
  refine decode_eq_ok.2 ⟨_, by simpa using h, rfl, ?_⟩
  simp [Format.read, putR1, putR2, putArg]
  rfl

theorem decode_optRiAdr {k : Option RI → Adr → Instr}
    (h : rowOf (fieldsOf u o f v).sel = some ⟨m, p, mask, .optRiAdr k⟩) {src : Option RI} {a : Adr}
    (ht : twoArgs src a = false) :
    decode (putOpt src (putAdr2 a (fieldsOf u o f v))) = .ok (k src a) := by
  have hcheck : (Format.optRiAdr k).check (putOpt src (putAdr2 a (fieldsOf u o f v))) =
      if twoArgs src a then some .oneArg else none := by
    rcases src with _ | (_ | _) <;> rcases a with ⟨_ | _, _ | _⟩ <;> rfl
  refine decode_eq_ok.2 ⟨_, by simpa using h, ?_, ?_⟩
  · rw [hcheck, ht]
    rfl
  · rcases src with _ | (_ | _) <;> rcases a with ⟨_ | _, _ | _⟩ <;>
      simp [Format.read, readOpt, readSrc, readAdr, putOpt, putSrc, putAdr2, putOff, putR1, putR2,
        putArg, fieldsOf, Except.map, twoArgs] at ht ⊢ <;> rfl

/-! The records whose row leaves `val`, VAL or FLAG1 free. -/

/-- A row that leaves `val` free is selected whatever it is. -/
theorem rowOf_fieldsOf {fm : Format} (h : rowOf (fieldsOf u o f 0).sel = some ⟨m, p, 0x7FF80, fm⟩)
    (v : Val) : rowOf (fieldsOf u o f v).sel = some ⟨m, p, 0x7FF80, fm⟩ :=
  rowOf_of_agree h ((fieldsOf_sel_and_mask u o f v).trans (fieldsOf_sel_and_mask u o f 0).symm)

theorem decode_v {k : Val → Instr} (h : rowOf (fieldsOf u o f 0).sel = some ⟨m, p, 0x7FF80, .v k⟩)
    (v : Val) : decode (fieldsOf u o f v) = .ok (k v) :=
  decode_of_check_none (rowOf_fieldsOf h v) rfl

theorem decode_unknownV {k : Val → Instr}
    (h : rowOf (fieldsOf u o f 0).sel = some ⟨m, p, 0x7FF80, .unknownV k⟩) (v : Val) :
    decode (fieldsOf u o f v) = .ok (k v) :=
  decode_of_check_none (rowOf_fieldsOf h v) rfl

theorem decode_vR {k : Val → Reg → Instr}
    (h : rowOf (fieldsOf u o f 0).sel = some ⟨m, p, 0x7FF80, .vR k⟩) (v : Val) (r : Reg) :
    decode (putR1 r (fieldsOf u o f v)) = .ok (k v r) := by
  refine decode_eq_ok.2 ⟨_, rowOf_fieldsOf h v, rfl, ?_⟩
  simp [Format.read, putR1]

theorem decode_vAdr {k : Val → Adr → Instr}
    (h : rowOf (fieldsOf u o f 0).sel = some ⟨m, p, 0x7FF80, .vAdr k⟩) (v : Val) (a : Adr) :
    decode (putAdr2 a (fieldsOf u o f v)) = .ok (k v a) := by
  refine decode_eq_ok.2 ⟨_, by simpa using rowOf_fieldsOf h v, ?_, ?_⟩
  · rcases a with ⟨_ | _, _ | _⟩ <;> rfl
  · rcases a with ⟨_ | _, _ | _⟩ <;>
      simp [Format.read, readAdr, putAdr2, putOff, putR2, fieldsOf, Except.map]

/-- A record with a shift count: read when the count is admitted, refused by WF_SHIFT when not. -/
theorem decode_vRR {k : Val → Reg → Reg → Instr}
    (h : rowOf (fieldsOf u o f 0).sel = some ⟨m, p, 0x7FF80, .vRR k⟩) (v : Val) (r d : Reg) :
    decode (putR1 r (putR2 d (fieldsOf u o f v))) =
      if goodCount v then .ok (k v r d) else .error (.illFormed .shift) := by
  have hrow : rowOf (putR1 r (putR2 d (fieldsOf u o f v))).sel = some ⟨m, p, 0x7FF80, .vRR k⟩ :=
    rowOf_fieldsOf h v
  have hcheck : (Format.vRR k).check (putR1 r (putR2 d (fieldsOf u o f v))) =
      if goodCount v then none else some .shift := by
    rw [check_of_val_zero rfl rfl]
    cases hg : goodCount v <;> simp [Format.hasCount, Format.hasCond, hg]
  split
  · next hg =>
    rw [decode_of_check_none hrow (hcheck.trans (if_pos hg))]
    simp [Format.read, putR1, putR2]
    rfl
  · next hg => exact decode_of_check_some hrow (hcheck.trans (if_neg hg))

theorem decode_vRiR {k : Val → RI → Reg → Instr}
    (h : rowOf (fieldsOf u o f 0).sel = some ⟨m, p, 0x7FF80, .vRiR k⟩) (v : Val) (src : RI) (d : Reg) :
    decode (putSrc src (putR2 d (fieldsOf u o f v))) =
      if goodCount v then .ok (k v src d) else .error (.illFormed .shift) := by
  have hrow : rowOf (putSrc src (putR2 d (fieldsOf u o f v))).sel =
      some ⟨m, p, 0x7FF80, .vRiR k⟩ := by
    simpa using rowOf_fieldsOf h v
  have hcheck : (Format.vRiR k).check (putSrc src (putR2 d (fieldsOf u o f v))) =
      if goodCount v then none else some .shift := by
    rw [check_of_val_zero rfl (by cases src <;> rfl)]
    cases hg : goodCount v <;> simp [Format.hasCount, Format.hasCond, hg]
  split
  · next hg =>
    rw [decode_of_check_none hrow (hcheck.trans (if_pos hg))]
    cases src <;> simp [Format.read, readSrc, putSrc, putR1, putR2, putArg, fieldsOf] <;> rfl
  · next hg => exact decode_of_check_some hrow (hcheck.trans (if_neg hg))

theorem decode_vr {k : VR → Instr} (h : rowOf (fieldsOf u o f 0).sel = some ⟨m, p, 0x7FD80, .vr k⟩)
    (hf : f.getLsbD 2 = false) (n : VR) : decode (putVr n (fieldsOf u o f 0)) = .ok (k n) := by
  cases n with
  | val n =>
    refine decode_of_check_none (rowOf_of_agree h ?_) rfl
    rw [sel_and_mask_vr, sel_and_mask_vr]
    rfl
  | reg r =>
    refine decode_eq_ok.2 ⟨_, h, rfl, ?_⟩
    simp [Format.read, readVr, putVr, putR1, fieldsOf, -BitVec.getLsbD_eq_getElem, hf, Except.map]

theorem decode_riRFlag {k : Bool → RI → Reg → Instr}
    (h : rowOf (fieldsOf u o f 0).sel = some ⟨m, p, 0x7FE80, .riRFlag k⟩) (b : Bool) (src : RI)
    (d : Reg) :
    decode (putSrc src (putR2 d (putFlag1 b (fieldsOf u o f 0)))) = .ok (k b src d) := by
  have hrow : rowOf (putSrc src (putR2 d (putFlag1 b (fieldsOf u o f 0)))).sel =
      some ⟨m, p, 0x7FE80, .riRFlag k⟩ := by
    refine rowOf_of_agree h ?_
    rw [putSrc_sel, putR2_sel, sel_and_mask_flag1, sel_and_mask_flag1]
    rfl
  refine decode_eq_ok.2 ⟨_, hrow, ?_, ?_⟩
  · cases src <;> rfl
  · cases src <;> simp [Format.read, readSrc, putSrc, putR1, putR2, putArg, putFlag1, fieldsOf] <;> rfl

theorem decode_unknownFlag {k : Bool → Instr}
    (h : rowOf (fieldsOf u o f 0).sel = some ⟨m, p, 0x7FE80, .unknownFlag k⟩) (b : Bool) :
    decode (putFlag1 b (fieldsOf u o f 0)) = .ok (k b) := by
  refine decode_of_check_none (rowOf_of_agree h ?_) rfl
  rw [sel_and_mask_flag1, sel_and_mask_flag1]
  rfl

end

/-! ### Every instruction -/

/-- The count of a well-formed instruction is admitted (R173). -/
theorem goodCount_of_wellFormed {i : Instr} {v : Val} (h : wellFormed i = true)
    (hv : shiftCount? i = some v) : goodCount v = true := by
  simpa [wfShift, hv] using (Bool.and_eq_true_iff.1 h).2

/-- The optional operands of a well-formed instruction do not both ask for the argument parcel (R60). -/
theorem twoArgs_of_wellFormed {i : Instr} {src : Option RI} {a : Adr} (h : wellFormed i = true)
    (ho : optOperands? i = some (src, a)) : twoArgs src a = false := by
  simpa [wfOneArg, ho] using (Bool.and_eq_true_iff.1 h).1

/-- An instruction with a shift or rotate count is decoded from its record exactly when the count is
admitted. -/
theorem decode_encode_of_count {v : Val} : ∀ {i : Instr}, shiftCount? i = some v →
    decode (encode i) = if goodCount v then .ok i else .error (.illFormed .shift)
  | .msl _ src d, rfl | .sla _ src d, rfl | .slr _ src d, rfl | .slm _ src d, rfl
  | .srm _ src d, rfl | .sml _ src d, rfl | .smr _ src d, rfl => decode_vRiR rfl v src d
  | .msr _ r d, rfl | .shl _ r d, rfl | .shr _ r d, rfl | .sra _ r d, rfl | .rol _ r d, rfl
  | .ror _ r d, rfl | .sal _ r d, rfl | .sar _ r d, rfl => decode_vRR rfl v r d

/-- An instruction without a count, by its format. -/
theorem decode_encode_of_no_count : ∀ i : Instr, wellFormed i = true → shiftCount? i = none →
    decode (encode i) = .ok i
  | .nop, _, _ => decode_of_check_none (row := ⟨"NOP", 0x7FFFF, 0x7FFFF, .parcel .nop⟩) rfl rfl
  | .hlt _ _, h, _ | .sti _ _, h, _ | .cli _ _, h, _ =>
    decode_optRiAdr rfl (twoArgs_of_wellFormed h rfl)
  | .rst n, _, _ | .int n, _, _ => decode_vr rfl rfl n
  | .rcl a, _, _ | .ipg a, _, _ | .pfc a, _, _ | .plk a, _, _ | .jmp a, _, _ | .csr a, _, _ =>
    decode_adr rfl a
  | .bzf a, _, _ | .beq a, _, _ | .bne a, _, _ | .blt a, _, _ | .ble a, _, _ | .bgt a, _, _
  | .bge a, _, _ | .bcf a, _, _ | .bnc a, _, _ | .bof a, _, _ | .bno a, _, _ | .bsf a, _, _
  | .bns a, _, _ => decode_condAdr rfl (by decide) a
  | .wfe v, _, _ | .sev v, _, _ => decode_v rfl v
  | .rpc v r, _, _ | .ldx v r, _, _ => decode_vR rfl v r
  | .stx v a, _, _ => decode_vAdr rfl v a
  | .flc, _, _ | .brd, _, _ | .bwr, _, _ | .bar, _, _ | .ret, _, _ => decode_none rfl
  | .not src d, _, _ | .neg src d, _, _ | .and src d, _, _ | .ior src d, _, _ | .xor src d, _, _
  | .add src d, _, _ | .adc src d, _, _ | .sub src d, _, _ | .sbb src d, _, _ | .cmp src d, _, _
  | .zex src d, _, _ | .sex src d, _, _ | .mul src d, _, _ | .mlh src d, _, _ | .div src d, _, _
  | .rem src d, _, _ | .irp src d, _, _ | .clz src d, _, _ | .ham src d, _, _ | .par src d, _, _
  | .bec src d, _, _ | .bdc src d, _, _ | .hsh src d, _, _ | .hun src d, _, _ => decode_riR rfl src d
  | .irp1 src d, _, _ => decode_ri rfl src d
  | .swp b src d, _, _ => decode_riRFlag rfl b src d
  | .inc r, _, _ | .dec r, _, _ | .irp2 r, _, _ | .psh r, _, _ | .pop r, _, _ => decode_r rfl r
  | .mad i r d, _, _ => decode_iRR rfl i r d
  | .ldr a d, _, _ => decode_adrR rfl a d
  | .str r a, _, _ => decode_rAdr rfl r a
  | .crc b, _, _ => decode_unknownFlag rfl b
  | .mkf v, _, _ | .thc v, _, _ | .ldc v, _, _ | .stc v, _, _ | .ioc v, _, _ => decode_unknownV rfl v
  | .ecc, _, _ | .ldl, _, _ | .stl, _, _ | .btc, _, _ | .bts, _, _ | .xadd, _, _ | .xinc, _, _
  | .xdec, _, _ | .cas, _, _ | .jmr, _, _ | .beg, _, _ | .fin, _, _ | .sys, _, _ | .thr, _, _
  | .thw, _, _ | .thy, _, _ | .srt, _, _ | .thx, _, _ | .irt, _, _ | .ckr, _, _ | .ckw, _, _
  | .ckx, _, _ | .ldn, _, _ | .stn, _, _ | .psm, _, _ | .pom, _, _ | .iop, _, _ | .ird, _, _
  | .iwr, _, _ => decode_unknown rfl

/-- Settles O1: the record of an instruction selects the instruction's own row and passes its checks, and
each operand is read from the field it was put into. -/
theorem decodeUndoesEncode : Obligations.DecodeUndoesEncode := by
  intro i hi
  cases hc : shiftCount? i with
  | none => exact decode_encode_of_no_count i hi hc
  | some v => rw [decode_encode_of_count hc, if_pos (goodCount_of_wellFormed hi hc)]

end Sys2Proof.Laws
end


/-! ## What an instruction can do when it goes on -/

section
namespace Sys2Proof.Machine

/-! ### The memory instructions, INT and the divisions -/

/-- Everything LDR can do when it goes on (R263). -/
theorem execLdr_eq_next {adr : Adr} {d : Reg} {s t : State} :
    execLdr adr d s = .next t ↔ ∃ w, memRead s (eaOf s adr) = .ok w ∧
      t = (s.setReg d w).advance (adrArg adr) := by
  unfold execLdr
  cases memRead s (eaOf s adr) with
  | error e => simp
  | ok w => simp [eq_comm]

/-- Everything STR can do when it goes on (R266). -/
theorem execStr_eq_next {r : Reg} {adr : Adr} {s t : State} :
    execStr r adr s = .next t ↔ accessible s (eaOf s adr) ∧
      t = { s with mem := putWord s.mem (eaOf s adr).toNat (s.reg r) }.advance (adrArg adr) := by
  unfold execStr memWrite
  rw [← memCheck_eq_none_iff]
  cases memCheck s (eaOf s adr) with
  | some e => simp
  | none => simp [eq_comm]

/-- Everything STX can do when it goes on (R111). -/
theorem execStx_eq_next {v : Val} {adr : Adr} {s t : State} :
    execStx v adr s = .next t ↔ accessible s (eaOf s adr) ∧
      t = { s with mem := putWord s.mem (eaOf s adr).toNat s.drawn }.nextDraw.advance (adrArg adr) := by
  unfold execStx memWrite
  rw [← memCheck_eq_none_iff]
  cases memCheck s (eaOf s adr) with
  | some e => simp
  | none => simp [eq_comm]

/-- Everything PSH can do when it goes on (R270). -/
theorem execPsh_eq_next {r : Reg} {s t : State} :
    execPsh r s = .next t ↔ accessible s (pushAddr s) ∧
      t = ({ s with mem := putWord s.mem (pushAddr s).toNat (s.reg r) }.setReg spReg
        (pushAddr s)).advance false := by
  unfold execPsh memWrite
  rw [← memCheck_eq_none_iff]
  cases memCheck s (pushAddr s) with
  | some e => simp
  | none => simp [eq_comm]

/-- Everything POP can do when it goes on (R272). -/
theorem execPop_eq_next {d : Reg} {s t : State} :
    execPop d s = .next t ↔ ∃ w, memRead s (s.reg spReg) = .ok w ∧
      t = ((s.setReg spReg (s.reg spReg + 4)).setReg d w).advance false := by
  unfold execPop
  cases memRead s (s.reg spReg) with
  | error e => simp
  | ok w => simp [eq_comm]

/-- Everything INT can do when it goes on (R103). -/
theorem execInt_eq_next {n : VR} {s t : State} :
    execInt n s = .next t ↔ (vrOf s n).toNat < 32 ∧
      t = { s with ipend := s.ipend ||| 1#32 <<< (vrOf s n).toNat }.advance false := by
  unfold execInt
  split
  · next h => simp [Nat.not_lt.2 (show 32 ≤ (vrOf s n).toNat from h)]
  · next h => simp [show (vrOf s n).toNat < 32 from Nat.not_le.1 h, eq_comm]

/-- Everything DIV can do when it goes on (R142). -/
theorem execDiv_eq_next {src : RI} {d : Reg} {s t : State} :
    execDiv src d s = .next t ↔ divideFault Config.muldivSigned (s.reg d) (srcOf s src) = none ∧
      toDest src d (quotient Config.muldivSigned (s.reg d) (srcOf s src)) s = .next t := by
  unfold execDiv
  split <;> simp [*]

/-- Everything REM can do when it goes on (R143). -/
theorem execRem_eq_next {src : RI} {d : Reg} {s t : State} :
    execRem src d s = .next t ↔ divideFault Config.muldivSigned (s.reg d) (srcOf s src) = none ∧
      toDest src d (remainder Config.muldivSigned (s.reg d) (srcOf s src)) s = .next t := by
  unfold execRem
  split <;> simp [*]

/-! ### The instructions without a meaning -/

/-- The instructions to which the spec gives no effect, each with the reason it is refused for (R307). -/
def refusalOf? : Instr → Option Refusal
  | .ldx v _ => some (.systemRegister v)
  | .ipg _ | .plk _ => some .translation
  | .irp _ _ => some .reciprocal
  | .crc _ => some (.notDefined "CRC")
  | .ecc => some (.notDefined "ECC")
  | .ldl => some (.notDefined "LDL")
  | .stl => some (.notDefined "STL")
  | .btc => some (.notDefined "BTC")
  | .bts => some (.notDefined "BTS")
  | .xadd => some (.notDefined "XADD")
  | .xinc => some (.notDefined "XINC")
  | .xdec => some (.notDefined "XDEC")
  | .cas => some (.notDefined "CAS")
  | .jmr => some (.notDefined "JMR")
  | .beg => some (.notDefined "BEG")
  | .fin => some (.notDefined "FIN")
  | .mkf _ => some (.notDefined "MKF")
  | .sys => some (.notDefined "SYS")
  | .thr => some (.notDefined "THR")
  | .thc _ => some (.notDefined "THC")
  | .thw => some (.notDefined "THW")
  | .thy => some (.notDefined "THY")
  | .srt => some (.notDefined "SRT")
  | .thx => some (.notDefined "THX")
  | .irt => some (.notDefined "IRT")
  | .ckr => some (.notDefined "CKR")
  | .ckw => some (.notDefined "CKW")
  | .ckx => some (.notDefined "CKX")
  | .ldn => some (.notDefined "LDN")
  | .ldc _ => some (.notDefined "LDC")
  | .stn => some (.notDefined "STN")
  | .stc _ => some (.notDefined "STC")
  | .psm => some (.notDefined "PSM")
  | .pom => some (.notDefined "POM")
  | .ioc _ => some (.notDefined "IOC")
  | .iop => some (.notDefined "IOP")
  | .ird => some (.notDefined "IRD")
  | .iwr => some (.notDefined "IWR")
  | _ => none

/-- They are refused for that reason in every state. -/
theorem exec_of_refusalOf {i : Instr} {r : Refusal} (h : refusalOf? i = some r) (s : State) :
    exec i s = .refused r := by
  cases i <;> cases h <;> rfl

/-- Settles O60: each is in the list of the refused ones. -/
theorem undefinedInstructionsAreRefused : Obligations.UndefinedInstructionsAreRefused := by
  intro s v b r d adr src
  refine ⟨fun p hp => exec_of_refusalOf ?_ s, exec_of_refusalOf rfl s, exec_of_refusalOf rfl s,
    exec_of_refusalOf rfl s, exec_of_refusalOf rfl s⟩
  revert p
  simp only [List.forall_mem_cons, List.not_mem_nil, false_implies, implies_true, and_true]
  and_intros <;> rfl

end Sys2Proof.Machine
end


/-! ## What a step can change -/

section
namespace Sys2Proof.Machine

/-- The state is the one before, or that with a word stored at an accessible address. -/
def savesAtMost (s u : State) : Prop :=
  u = s ∨ ∃ a v, accessible s a ∧ u = { s with mem := putWord s.mem a.toNat v }

/-- The states an instruction can go on to, by the operations that make them: which fields are written,
under which condition, and where `pc` goes. What the written values are is left open. -/
inductive Effect (s : State) : Instr → State → Prop
  /-- nothing but `pc` -/
  | goesOn {i : Instr} : Effect s i (s.advance (takesArg i))
  /-- a register -/
  | result {i : Instr} (d : Reg) (v : Word) : Effect s i ((s.setReg d v).advance (takesArg i))
  /-- a register and CF: ADC and SBB -/
  | carry {i : Instr} {src : RI} {d : Reg} (hi : i = .adc src d ∨ i = .sbb src d) (c : Bool) (v : Word) :
      Effect s i (((s.setCf c).setReg d v).advance (takesArg i))
  /-- the flags: CMP -/
  | compare (src : RI) (r : Reg) (f : Flags) :
      Effect s (.cmp src r) ((s.setFlags f).advance (takesArg (.cmp src r)))
  /-- `pc`, by a transfer of control -/
  | jump {i : Instr} (hi : transfers s.flags i = true) (a : Word) : Effect s i (s.setPc a)
  /-- `pc` and LR, by a transfer of control -/
  | call {i : Instr} (hi : transfers s.flags i = true) (v a : Word) :
      Effect s i ((s.setReg lrReg v).setPc a)
  /-- a word of memory -/
  | store {i : Instr} {a : Word} (ha : accessible s a) (v : Word) :
      Effect s i ({ s with mem := putWord s.mem a.toNat v }.advance (takesArg i))
  /-- a word of memory, which is undetermined -/
  | storeDrawn {i : Instr} {a : Word} (ha : accessible s a) (v : Word) :
      Effect s i ({ s with mem := putWord s.mem a.toNat v }.nextDraw.advance (takesArg i))
  /-- a word of memory and SP -/
  | push {i : Instr} {a : Word} (ha : accessible s a) (v w : Word) :
      Effect s i (({ s with mem := putWord s.mem a.toNat v }.setReg spReg w).advance (takesArg i))
  /-- SP and a register -/
  | pop {i : Instr} (d : Reg) (v w : Word) :
      Effect s i (((s.setReg spReg v).setReg d w).advance (takesArg i))
  /-- a register, which gets an undetermined word -/
  | resultDrawn {i : Instr} (d : Reg) (v : Word) :
      Effect s i ((s.nextDraw.setReg d v).advance (takesArg i))
  /-- the interrupt mask and `halted`, with nothing or the old mask stored: HLT -/
  | halt (m : Option RI) (save : Adr) {u : State} (hu : savesAtMost s u) (x : Word) :
      Effect s (.hlt m save) ({ u with imask := x, halted := true }.advance (takesArg (.hlt m save)))
  /-- the interrupt mask, with nothing or the old mask stored: STI and CLI -/
  | mask {i : Instr} {m : Option RI} {save : Adr} (hi : i = .sti m save ∨ i = .cli m save)
      {u : State} (hu : savesAtMost s u) (x : Word) :
      Effect s i ({ u with imask := x }.advance (takesArg i))
  /-- the pending interrupts, of which one is added: INT -/
  | interrupt (n : VR) (x : Word) :
      Effect s (.int n) ({ s with ipend := s.ipend ||| x }.advance (takesArg (.int n)))
  /-- the reservation: RCL -/
  | reserve (adr : Adr) (line : Nat) :
      Effect s (.rcl adr) ({ s with resv := some line }.advance (takesArg (.rcl adr)))
  /-- the outcome: RST and WFE -/
  | ends {i : Instr} (hi : endsRun i = true) (e : Ending) : Effect s i { s with outcome := some e }

section
variable {s t : State} {i : Instr} {src : RI} {d : Reg} {v : Word}

theorem toDest_effect (hi : takesArg i = srcArg src) (h : toDest src d v s = .next t) :
    Effect s i t := by
  cases h
  exact hi ▸ .result d v

theorem toReg_effect (hi : takesArg i = false) (h : toReg d v s = .next t) : Effect s i t := by
  cases h
  exact hi ▸ .result d v

theorem goOn_effect {b : Bool} (hi : takesArg i = b) (h : goOn b s = .next t) : Effect s i t := by
  cases h
  exact hi ▸ .goesOn

theorem branch_effect {c : Bool} {adr : Adr} (hi : takesArg i = adrArg adr)
    (hc : transfers s.flags i = (some c == some true)) (h : branch c adr s = .next t) :
    Effect s i t := by
  cases c with
  | true => cases h; exact .jump hc _
  | false => exact goOn_effect hi h

/-- The state HLT, STI and CLI change: the one before, or that with the mask stored. -/
theorem maskOp_effect {m : Option RI} {save : Adr} {f : Option Word → State → State}
    (h : maskOp m save s f = .next t) : ∃ u,
      savesAtMost s u ∧ t = (f (m.map (srcOf s)) u).advance (optArg m || adrArg save) := by
  obtain ⟨-, u, ⟨-, hu⟩ | ⟨-, ha, hu⟩, ht⟩ := maskOp_eq_next.1 h
  · exact ⟨u, .inl hu, ht⟩
  · exact ⟨u, .inr ⟨_, _, ha, hu⟩, ht⟩

end

/-- The meanings of HLT, STI and CLI are of one shape (R101, R104, R105). -/
theorem exec_hlt (m : Option RI) (save : Adr) (s : State) : exec (.hlt m save) s =
    maskOp m save s fun v t => { t with imask := hltMask t.imask v, halted := true } := rfl

theorem exec_sti (m : Option RI) (save : Adr) (s : State) : exec (.sti m save) s =
    maskOp m save s fun v t => { t with imask := stiMask t.imask v } := rfl

theorem exec_cli (m : Option RI) (save : Adr) (s : State) : exec (.cli m save) s =
    maskOp m save s fun v t => { t with imask := cliMask t.imask v } := rfl

/-- An instruction with a shift or rotate count checks it and writes a register. -/
theorem exec_of_count {v : Val} : ∀ {i : Instr}, shiftCount? i = some v → ∀ s : State,
    ∃ k, exec i s = withCount v s k ∧
      ∀ n, ∃ d w, k n = .next ((s.setReg d w).advance (takesArg i))
  | .msl .., rfl, _ | .sla .., rfl, _ | .slr .., rfl, _ | .slm .., rfl, _ | .srm .., rfl, _
  | .sml .., rfl, _ | .smr .., rfl, _ | .msr .., rfl, _ | .shl .., rfl, _ | .shr .., rfl, _
  | .sra .., rfl, _ | .rol .., rfl, _ | .ror .., rfl, _ | .sal .., rfl, _ | .sar .., rfl, _ =>
    ⟨_, rfl, fun _ => ⟨_, _, rfl⟩⟩

/-- Settles O49: the count is checked by the decoder and again by the meaning. -/
theorem largeCountsAreRefused : Obligations.LargeCountsAreRefused := by
  intro i v s hc hv
  have hg : ¬ goodCount v = true := by
    rw [goodCount, decide_eq_true_iff]
    exact Nat.not_le.2 hv
  refine ⟨?_, ?_⟩
  · rw [Laws.decode_encode_of_count hc, if_neg hg]
  · obtain ⟨k, hx, -⟩ := exec_of_count hc s
    rw [hx, withCount_refuses hv]

/-- Everything an instruction with a meaning and no shift count can do when it goes on, by the shape of its
meaning. -/
theorem exec_effect_of_no_count {s t : State} : ∀ {i : Instr}, refusalOf? i = none →
    shiftCount? i = none → exec i s = .next t → Effect s i t
  | .not .., _, _, h | .neg .., _, _, h | .and .., _, _, h | .ior .., _, _, h | .xor .., _, _, h
  | .add .., _, _, h | .sub .., _, _, h | .zex .., _, _, h | .sex .., _, _, h | .mul .., _, _, h
  | .mlh .., _, _, h | .mad .., _, _, h | .irp1 .., _, _, h | .clz .., _, _, h | .ham .., _, _, h
  | .par .., _, _, h | .swp .., _, _, h | .bec .., _, _, h | .bdc .., _, _, h | .hsh .., _, _, h
  | .hun .., _, _, h =>
    toDest_effect rfl h
  | .div .., _, _, h => toDest_effect rfl (execDiv_eq_next.1 h).2
  | .rem .., _, _, h => toDest_effect rfl (execRem_eq_next.1 h).2
  | .inc .., _, _, h | .dec .., _, _, h | .irp2 .., _, _, h => toReg_effect rfl h
  | .nop, _, _, h | .sev _, _, _, h | .pfc _, _, _, h | .flc, _, _, h | .brd, _, _, h | .bwr, _, _, h
  | .bar, _, _, h => goOn_effect rfl h
  | .bzf _, _, _, h | .beq _, _, _, h | .bne _, _, _, h | .blt _, _, _, h | .ble _, _, _, h | .bgt _, _, _, h
  | .bge _, _, _, h | .bcf _, _, _, h | .bnc _, _, _, h | .bof _, _, _, h | .bno _, _, _, h | .bsf _, _, _, h
  | .bns _, _, _, h => branch_effect rfl rfl h
  | .jmp _, _, _, rfl | .ret, _, _, rfl => .jump rfl _
  | .csr _, _, _, rfl => .call rfl _ _
  | .adc _ _, _, _, rfl => .carry (.inl rfl) _ _
  | .sbb _ _, _, _, rfl => .carry (.inr rfl) _ _
  | .cmp _ _, _, _, rfl => .compare _ _ _
  | .hlt m a, _, _, h => by
    obtain ⟨u, hu, rfl⟩ := maskOp_effect ((exec_hlt m a s).symm.trans h)
    exact .halt m a hu _
  | .sti m a, _, _, h => by
    obtain ⟨u, hu, rfl⟩ := maskOp_effect ((exec_sti m a s).symm.trans h)
    exact .mask (.inl rfl) hu _
  | .cli m a, _, _, h => by
    obtain ⟨u, hu, rfl⟩ := maskOp_effect ((exec_cli m a s).symm.trans h)
    exact .mask (.inr rfl) hu _
  | .int n, _, _, h => by
    obtain ⟨-, rfl⟩ := execInt_eq_next.1 h
    exact .interrupt n _
  | .rcl _, _, _, rfl => .reserve _ _
  | .rst _, _, _, rfl | .wfe _, _, _, rfl => .ends rfl _
  | .rpc _ _, _, _, rfl => .resultDrawn _ _
  | .stx v _, _, _, h => by
    obtain ⟨ha, rfl⟩ := (execStx_eq_next (v := v)).1 h
    exact .storeDrawn ha _
  | .ldr _ d, _, _, h => by
    obtain ⟨w, -, rfl⟩ := execLdr_eq_next.1 h
    exact .result d w
  | .str _ _, _, _, h => by
    obtain ⟨ha, rfl⟩ := execStr_eq_next.1 h
    exact .store ha _
  | .psh _, _, _, h => by
    obtain ⟨ha, rfl⟩ := execPsh_eq_next.1 h
    exact .push ha _ _
  | .pop d, _, _, h => by
    obtain ⟨w, -, rfl⟩ := execPop_eq_next.1 h
    exact .pop d _ w

/-- Everything an instruction can do when it goes on. -/
theorem exec_effect {i : Instr} {s t : State} (h : exec i s = .next t) : Effect s i t := by
  cases hr : refusalOf? i with
  | some r => rw [exec_of_refusalOf hr s] at h; cases h
  | none =>
    cases hc : shiftCount? i with
    | none => exact exec_effect_of_no_count hr hc h
    | some v =>
      obtain ⟨k, hx, hk⟩ := exec_of_count hc s
      obtain ⟨d, w, hn⟩ := hk v.toNat
      cases hn.symm.trans (withCount_eq_next.1 (hx.symm.trans h)).2
      exact .result d w

/-- Everything a step can do when it goes on. -/
theorem step_effect {s t : State} (h : step s = .next t) : ∃ i, Effect s i t := by
  obtain ⟨i, -, hx⟩ := step_eq_next.1 h
  exact ⟨i, exec_effect hx⟩

/-! ### Rules of the whole machine -/

/-- Settles O16: only `compare` writes the flags, and `carry` of them CF. -/
theorem onlyCmpAdcSbbWriteFlags : Obligations.OnlyCmpAdcSbbWriteFlags := by
  intro i s t h
  cases exec_effect h with
  | compare src r f => exact ⟨fun hc => absurd rfl (hc src r), fun hc => absurd rfl (hc src r)⟩
  | carry hi c v =>
    refine ⟨fun _ => by simp, fun _ ha hb => ?_⟩
    rcases hi with hi | hi
    · exact absurd hi (ha _ _)
    · exact absurd hi (hb _ _)
  | halt m save hu x => rcases hu with rfl | ⟨a, v, -, rfl⟩ <;> simp
  | mask hi hu x => rcases hu with rfl | ⟨a, v, -, rfl⟩ <;> simp
  | _ => simp

/-- Settles O17: every change but a transfer of control and the end of the run advances `pc`. -/
theorem goesOnUnlessItTransfers : Obligations.GoesOnUnlessItTransfers := by
  intro i s t h ht he
  cases exec_effect h with
  | jump hi a => rw [hi] at ht; cases ht
  | call hi v a => rw [hi] at ht; cases ht
  | ends hi e => rw [hi] at he; cases he
  | halt m save hu x => rcases hu with rfl | ⟨a, v, -, rfl⟩ <;> rfl
  | mask hi hu x => rcases hu with rfl | ⟨a, v, -, rfl⟩ <;> rfl
  | _ => simp

/-- Settles O18: no change writes the program, `MemMap` or the mode. -/
theorem programMapAndModeAreFixed : Obligations.ProgramMapAndModeAreFixed := by
  intro s t h
  obtain ⟨i, hi⟩ := step_effect h
  cases hi with
  | halt m save hu x => rcases hu with rfl | ⟨a, v, -, rfl⟩ <;> simp
  | mask hi hu x => rcases hu with rfl | ⟨a, v, -, rfl⟩ <;> simp
  | _ => simp

/-- Settles O19: each of these fields is written by the changes of its own instructions only. -/
theorem systemStateHasFewWriters : Obligations.SystemStateHasFewWriters := by
  intro i s t h
  cases exec_effect h with
  | halt m save hu x => rcases hu with rfl | ⟨a, v, -, rfl⟩ <;> simp
  | mask hi hu x =>
    rcases hi with rfl | rfl <;> rcases hu with rfl | ⟨a, v, -, rfl⟩ <;> simp
  | interrupt n x => simp +contextual
  | ends hi e => simp [hi]
  | _ => simp

/-! ### The invariant -/

/-- The entries of memory are addresses of data memory: inside `MemMap`, outside the text region. -/
def memIsData (s : State) (m : Memory) : Prop :=
  ∀ c ∈ m, inMemMap s.memMap (BitVec.ofNat 32 c.1) = true ∧ inText s.text (BitVec.ofNat 32 c.1) = false

/-- The addresses from an aligned one on are those of its word. -/
theorem ofNat_mem_wordAddrs {a : Word} {x : Nat} (h : a.toNat ≤ x ∧ x < a.toNat + 4) :
    BitVec.ofNat 32 x ∈ wordAddrs a := by
  obtain ⟨k, rfl⟩ := Nat.exists_eq_add_of_le h.1
  have hk : k < 4 := by omega
  rw [← BitVec.ofNat_add_ofNat, BitVec.ofNat_toNat, BitVec.setWidth_eq]
  simp only [wordAddrs, List.mem_cons]
  interval_cases k <;> simp

/-- A word stored at an accessible address keeps memory in data memory. -/
theorem putWord_memIsData {s : State} {a : Word} (ha : accessible s a) (hs : memIsData s s.mem) (v : Word) :
    memIsData s (putWord s.mem a.toNat v) := by
  intro c hc
  rcases mem_putWord hc with h | h
  · exact (ha.2 _ (ofNat_mem_wordAddrs h)).symm
  · exact hs c h

/-- The memory after a change is the one before, or that with a word stored at an accessible address. -/
theorem Effect.mem {s t : State} {i : Instr} (h : Effect s i t) :
    t.mem = s.mem ∨ ∃ a v, accessible s a ∧ t.mem = putWord s.mem a.toNat v := by
  cases h with
  | store ha v => exact .inr ⟨_, v, ha, rfl⟩
  | storeDrawn ha v => exact .inr ⟨_, v, ha, rfl⟩
  | push ha v w => exact .inr ⟨_, v, ha, by simp⟩
  | halt m save hu x =>
    rcases hu with rfl | ⟨a, v, ha, rfl⟩
    · exact .inl rfl
    · exact .inr ⟨a, v, ha, rfl⟩
  | mask hi hu x =>
    rcases hu with rfl | ⟨a, v, ha, rfl⟩
    · exact .inl rfl
    · exact .inr ⟨a, v, ha, rfl⟩
  | _ => exact .inl (by simp)

/-- Settles O12: a step writes memory by a store at an accessible address, if at all, and a word store
there keeps the canonical form and stays in data memory. -/
theorem everyStepKeepsTheInvariant : Obligations.EveryStepKeepsTheInvariant := by
  rintro s t ⟨hwf, hdata, hmode⟩ h
  obtain ⟨htext, hmap, hmode'⟩ := programMapAndModeAreFixed s t h
  obtain ⟨i, hi⟩ := step_effect h
  have hmem : Memory.wf t.mem ∧ memIsData s t.mem := by
    rcases hi.mem with hm | ⟨a, v, ha, hm⟩ <;> rw [hm]
    · exact ⟨hwf, hdata⟩
    · exact ⟨putWord_wf hwf (aligned_lt ha.1) v, putWord_memIsData ha hdata v⟩
  refine ⟨hmem.1, ?_, hmode'.trans hmode⟩
  rw [htext, hmap]
  exact hmem.2

/-- Settles O13: there is no byte of memory to ask about. -/
theorem resetHasTheInvariant : Obligations.ResetHasTheInvariant :=
  ⟨reset_mem_wf, fun _ hc => (List.not_mem_nil hc).elim, rfl⟩

/-- Settles O14: the fields of the reset state, and that RESET_PC is even. -/
theorem resetIsQuiet : Obligations.ResetIsQuiet :=
  ⟨rfl, rfl, rfl, rfl, rfl, rfl, rfl, by decide, rfl⟩

end Sys2Proof.Machine
end


/-! ## The reservation is unobservable -/

section
namespace Sys2Proof.Machine

/-- The state with the reservation replaced. -/
def State.withResv (s : State) (v : Option Nat) : State := { s with resv := v }

/-- A step's answer with the next state, if there is one, replaced by its image. -/
def onNext (g : State → State) : Result → Result
  | .next t => .next (g t)
  | .fault f => .fault f
  | .refused r => .refused r

section
variable (s : State) (v : Option Nat)

/-! ### The operations commute with the replacement -/

theorem setReg_withResv (d : Reg) (x : Word) :
    (s.withResv v).setReg d x = (s.setReg d x).withResv v := by
  unfold State.setReg
  split <;> rfl

theorem toDest_withResv (src : RI) (d : Reg) (x : Word) :
    toDest src d x (s.withResv v) = onNext (·.withResv v) (toDest src d x s) := by
  rw [toDest, setReg_withResv]
  rfl

theorem toReg_withResv (d : Reg) (x : Word) :
    toReg d x (s.withResv v) = onNext (·.withResv v) (toReg d x s) := by
  rw [toReg, setReg_withResv]
  rfl

theorem branch_withResv (c : Bool) (adr : Adr) :
    branch c adr (s.withResv v) = onNext (·.withResv v) (branch c adr s) := by
  cases c <;> rfl

theorem stopWith_withResv (e : Stop) :
    stopWith e (s.withResv v) = onNext (·.withResv v) (stopWith e s) := by
  cases e <;> rfl

/-- A counted meaning commutes where its result does. -/
theorem withCount_withResv (n : Val) {k k' : Nat → Result}
    (hk : ∀ n, k' n = onNext (·.withResv v) (k n)) :
    withCount n (s.withResv v) k' = onNext (·.withResv v) (withCount n s k) := by
  unfold withCount
  split
  · exact hk _
  · rfl

theorem memRead_withResv (a : Word) : memRead (s.withResv v) a = memRead s a := rfl

theorem memWrite_withResv (a x : Word) :
    memWrite (s.withResv v) a x = (memWrite s a x).map (·.withResv v) := by
  unfold memWrite
  rw [show memCheck (s.withResv v) a = memCheck s a from rfl]
  cases memCheck s a <;> rfl

theorem reg_withResv : (s.withResv v).reg = s.reg := rfl

theorem eaOf_withResv (adr : Adr) : eaOf (s.withResv v) adr = eaOf s adr := rfl

theorem srcOf_withResv : srcOf (s.withResv v) = srcOf s := rfl

/-! ### The meanings that read or write memory -/

theorem execLdr_withResv (adr : Adr) (d : Reg) :
    execLdr adr d (s.withResv v) = onNext (·.withResv v) (execLdr adr d s) := by
  unfold execLdr
  rw [eaOf_withResv, memRead_withResv]
  cases memRead s (eaOf s adr) with
  | error e => exact stopWith_withResv s v e
  | ok w =>
    simp only [setReg_withResv]
    rfl

theorem execPop_withResv (d : Reg) :
    execPop d (s.withResv v) = onNext (·.withResv v) (execPop d s) := by
  unfold execPop
  rw [reg_withResv, memRead_withResv]
  cases memRead s (s.reg spReg) with
  | error e => exact stopWith_withResv s v e
  | ok w =>
    simp only [setReg_withResv]
    rfl

theorem execStr_withResv (r : Reg) (adr : Adr) :
    execStr r adr (s.withResv v) = onNext (·.withResv v) (execStr r adr s) := by
  unfold execStr
  rw [eaOf_withResv, memWrite_withResv, reg_withResv]
  cases memWrite s (eaOf s adr) (s.reg r) with
  | error e => exact stopWith_withResv s v e
  | ok t => rfl

theorem execStx_withResv (n : Val) (adr : Adr) :
    execStx n adr (s.withResv v) = onNext (·.withResv v) (execStx n adr s) := by
  unfold execStx
  rw [eaOf_withResv, memWrite_withResv, show (s.withResv v).drawn = s.drawn from rfl]
  cases memWrite s (eaOf s adr) s.drawn with
  | error e => exact stopWith_withResv s v e
  | ok t => rfl

theorem execPsh_withResv (r : Reg) :
    execPsh r (s.withResv v) = onNext (·.withResv v) (execPsh r s) := by
  unfold execPsh
  rw [memWrite_withResv, reg_withResv,
    show pushAddr (s.withResv v) = pushAddr s from rfl]
  cases memWrite s (pushAddr s) (s.reg r) with
  | error e => exact stopWith_withResv s v e
  | ok t =>
    simp only [Except.map, setReg_withResv]
    rfl

theorem maskOp_withResv (m : Option RI) (save : Adr) {f : Option Word → State → State}
    (hf : ∀ x t, f x (t.withResv v) = (f x t).withResv v) :
    maskOp m save (s.withResv v) f = onNext (·.withResv v) (maskOp m save s f) := by
  unfold maskOp
  rw [eaOf_withResv, memWrite_withResv, srcOf_withResv, show (s.withResv v).imask = s.imask from rfl]
  split
  · rfl
  · cases adrPresent save with
    | false =>
      simp only [Bool.false_eq_true, if_false, hf]
      rfl
    | true =>
      simp only [if_true]
      cases memWrite s (eaOf s save) s.imask with
      | error e => exact stopWith_withResv s v e
      | ok t =>
        simp only [Except.map, hf]
        rfl

theorem execDiv_withResv (src : RI) (d : Reg) :
    execDiv src d (s.withResv v) = onNext (·.withResv v) (execDiv src d s) := by
  unfold execDiv
  rw [srcOf_withResv, reg_withResv]
  split
  · rfl
  · exact toDest_withResv s v src d _

theorem execRem_withResv (src : RI) (d : Reg) :
    execRem src d (s.withResv v) = onNext (·.withResv v) (execRem src d s) := by
  unfold execRem
  rw [srcOf_withResv, reg_withResv]
  split
  · rfl
  · exact toDest_withResv s v src d _

theorem execCsr_withResv (adr : Adr) :
    execCsr adr (s.withResv v) = onNext (·.withResv v) (execCsr adr s) := by
  unfold execCsr
  rw [setReg_withResv]
  rfl

theorem execInt_withResv (n : VR) :
    execInt n (s.withResv v) = onNext (·.withResv v) (execInt n s) := by
  unfold execInt
  rw [show vrOf (s.withResv v) = vrOf s from rfl]
  split <;> rfl

end

/-! ### Every instruction but RCL, and the step -/

/-- An instruction with a meaning, other than RCL, commutes with the replacement, by the shape of its
meaning. -/
theorem exec_withResv_of_meaning (s : State) (v : Option Nat) : ∀ {i : Instr}, refusalOf? i = none →
    (∀ a, i ≠ .rcl a) → exec i (s.withResv v) = onNext (·.withResv v) (exec i s)
  | .rcl a, _, h => absurd rfl (h a)
  | .not .., _, _ | .neg .., _, _ | .and .., _, _ | .ior .., _, _ | .xor .., _, _ | .add .., _, _
  | .sub .., _, _ | .zex .., _, _ | .sex .., _, _ | .mul .., _, _ | .mlh .., _, _ | .mad .., _, _
  | .irp1 .., _, _ | .clz .., _, _ | .ham .., _, _ | .par .., _, _ | .swp .., _, _ | .bec .., _, _
  | .bdc .., _, _ | .hsh .., _, _ | .hun .., _, _ => toDest_withResv s v _ _ _
  | .adc src d, _, _ => toDest_withResv (s.setCf (addCarry (s.reg d) (srcOf s src))) v src d _
  | .sbb src d, _, _ => toDest_withResv (s.setCf (subBorrow (s.reg d) (srcOf s src))) v src d _
  | .div src d, _, _ => execDiv_withResv s v src d
  | .rem src d, _, _ => execRem_withResv s v src d
  | .msl .., _, _ | .sla .., _, _ | .slr .., _, _ | .slm .., _, _ | .srm .., _, _ | .sml .., _, _
  | .smr .., _, _ => withCount_withResv s v _ fun _ => toDest_withResv s v _ _ _
  | .msr .., _, _ | .shl .., _, _ | .shr .., _, _ | .sra .., _, _ | .rol .., _, _ | .ror .., _, _
  | .sal .., _, _ | .sar .., _, _ => withCount_withResv s v _ fun _ => toReg_withResv s v _ _
  | .inc .., _, _ | .dec .., _, _ | .irp2 .., _, _ => toReg_withResv s v _ _
  | .rpc _ d, _, _ => toReg_withResv s.nextDraw v d _
  | .nop, _, _ | .sev _, _, _ | .pfc _, _, _ | .flc, _, _ | .brd, _, _ | .bwr, _, _ | .bar, _, _
  | .cmp .., _, _ | .jmp _, _, _ | .ret, _, _ | .rst _, _, _ | .wfe _, _, _ => rfl
  | .bzf _, _, _ | .beq _, _, _ | .bne _, _, _ | .blt _, _, _ | .ble _, _, _ | .bgt _, _, _
  | .bge _, _, _ | .bcf _, _, _ | .bnc _, _, _ | .bof _, _, _ | .bno _, _, _ | .bsf _, _, _
  | .bns _, _, _ => branch_withResv s v _ _
  | .csr _, _, _ => execCsr_withResv s v _
  | .hlt m a, _, _ | .sti m a, _, _ | .cli m a, _, _ => by
    simp only [exec_hlt, exec_sti, exec_cli]
    exact maskOp_withResv s v m a fun _ _ => rfl
  | .int n, _, _ => execInt_withResv s v n
  | .stx n a, _, _ => execStx_withResv s v n a
  | .ldr a d, _, _ => execLdr_withResv s v a d
  | .str r a, _, _ => execStr_withResv s v r a
  | .psh r, _, _ => execPsh_withResv s v r
  | .pop d, _, _ => execPop_withResv s v d

/-- Every instruction but RCL commutes with the replacement: none of them reads the reservation. -/
theorem exec_withResv (s : State) (v : Option Nat) {i : Instr} (h : ∀ a, i ≠ .rcl a) :
    exec i (s.withResv v) = onNext (·.withResv v) (exec i s) := by
  cases hr : refusalOf? i with
  | none => exact exec_withResv_of_meaning s v hr h
  | some r => rw [exec_of_refusalOf hr, exec_of_refusalOf hr]; rfl

/-- RCL sets the reservation whatever it was. -/
theorem exec_rcl_withResv (s : State) (v : Option Nat) (a : Adr) :
    exec (.rcl a) (s.withResv v) = exec (.rcl a) s := rfl

/-- A step of a state with the reservation replaced is the step of the state, with a reservation
replaced. -/
theorem step_withResv (s : State) (v : Option Nat) :
    ∃ w, step (s.withResv v) = onNext (·.withResv w) (step s) := by
  have hissue : issue (s.withResv v) = issue s := rfl
  unfold step
  rw [hissue]
  cases issue s with
  | error e => exact ⟨v, stopWith_withResv s v e⟩
  | ok i =>
    by_cases h : ∃ a, i = .rcl a
    · obtain ⟨a, rfl⟩ := h
      exact ⟨_, exec_rcl_withResv s v a⟩
    · exact ⟨v, exec_withResv s v fun a ha => h ⟨a, ha⟩⟩

/-- Settles O20: the step of the other state answers alike. -/
theorem reservationIsUnobservable : Obligations.ReservationIsUnobservable := by
  intro s v
  obtain ⟨w, hw⟩ := step_withResv s v
  refine ⟨fun t h => ⟨w, ?_⟩, fun f h => ?_, fun r h => ?_⟩ <;>
  · rw [h] at hw
    exact hw

end Sys2Proof.Machine
end


/-! ## The step before it executes -/

section
namespace Sys2Proof.Machine

/-- A step whose issue goes on executes the instruction. -/
theorem step_of_issue {s : State} {i : Instr} (h : issue s = .ok i) : step s = exec i s := by
  rw [step, h]

/-- A step whose issue stops answers by the stop. -/
theorem step_of_issue_error {s : State} {e : Stop} (h : issue s = .error e) :
    step s = stopWith e s := by
  rw [step, h]

/-- Settles O9: the conditions are those under which the instruction is issued. -/
theorem stepRunsTheDecodedInstruction : Obligations.StepRunsTheDecodedInstruction :=
  fun _ r _ ho hd hh hpc ht hr hw =>
    step_of_issue (issue_eq_ok.2 ⟨ho, hd, hh, fetch_eq_ok.2 ⟨hpc, r, ht, hr, hw⟩⟩)

/-- Settles O11: a placed record is the one at its address, in a well-formed text. -/
theorem placedInstructionRunsNext : Obligations.PlacedInstructionRunsNext := by
  intro s nbits w i ho hd hh hpc hi
  have hdec : decode (recordOfBits (tableBits nbits w)) = .ok i := by
    unfold decodeTableWord decodeBits at hi
    cases hr : decode (recordOfBits (tableBits nbits w)) with
    | error e => rw [hr] at hi; cases hi
    | ok j => rw [hr] at hi; cases hi; rfl
  exact stepRunsTheDecodedInstruction (s.withFetchWord nbits w) _ i ho hd hh hpc
    (textAt_placeText s.text s.pc _) hdec (wfText_placeText s.text hpc _)

/-! ### The stops of the issue and of the fetch, in their order -/

/-- A machine that runs: its run has not ended, nothing is deliverable, it is not halted. -/
def fetches (s : State) : Prop := s.outcome = none ∧ s.ipend &&& s.imask = 0 ∧ s.halted = false

/-- Nothing is deliverable exactly when no pending interrupt is enabled (R312). -/
theorem deliverable_eq_false_iff {s : State} : deliverable s = false ↔ s.ipend &&& s.imask = 0 := by
  simp [deliverable]

theorem issue_of_outcome {s : State} {e : Ending} (h : s.outcome = some e) :
    issue s = .error (.fault (.ended e)) := by
  simp only [issue, h]

theorem issue_of_deliverable {s : State} (ho : s.outcome = none) (h : s.ipend &&& s.imask ≠ 0) :
    issue s = .error (.refuse .trapEntry) := by
  have hd : deliverable s = true := by simpa [deliverable] using h
  simp only [issue, ho, hd, if_true]

theorem issue_of_halted {s : State} (ho : s.outcome = none) (hd : s.ipend &&& s.imask = 0)
    (h : s.halted = true) : issue s = .error (.fault .final) := by
  simp [issue, ho, deliverable_eq_false_iff.2 hd, h]

theorem issue_of_fetches {s : State} (h : fetches s) : issue s = fetch s := by
  obtain ⟨ho, hd, hh⟩ := h
  simp [issue, ho, deliverable_eq_false_iff.2 hd, hh]

theorem fetch_of_odd {s : State} (h : s.pc.toNat % 2 = 1) :
    fetch s = .error (.fault (.misalignedFetch s.pc)) := by
  simp [fetch, h]

theorem fetch_of_no_record {s : State} (h : s.pc.toNat % 2 = 0) (ht : textAt s.text s.pc = none) :
    fetch s = .error (.refuse .noInstruction) := by
  simp [fetch, h, ht]

theorem fetch_of_rejected {s : State} {r : Record} {e : Reject} (h : s.pc.toNat % 2 = 0)
    (ht : textAt s.text s.pc = some r) (hr : decode r = .error e) :
    fetch s = .error (.refuse (rejection e)) := by
  simp [fetch, h, ht, hr]

theorem fetch_of_ill_formed_text {s : State} {r : Record} {i : Instr} (h : s.pc.toNat % 2 = 0)
    (ht : textAt s.text s.pc = some r) (hr : decode r = .ok i) (hw : wfText s.text = false) :
    fetch s = .error (.refuse (.illFormed .text)) := by
  simp [fetch, h, ht, hr, hw]

/-- Settles O10: each stop of the issue and of the fetch, where those before it do not apply. -/
theorem stepStopsInOrder : Obligations.StepStopsInOrder := by
  refine fun s => ⟨fun e h => step_of_issue_error (issue_of_outcome h),
    fun ho hd => step_of_issue_error (issue_of_deliverable ho hd), fun ho hd =>
    ⟨fun hh => step_of_issue_error (issue_of_halted ho hd hh), fun hh => ?_⟩⟩
  have stops {e : Stop} (h : fetch s = .error e) : step s = stopWith e s :=
    step_of_issue_error ((issue_of_fetches ⟨ho, hd, hh⟩).trans h)
  exact ⟨fun hpc => stops (fetch_of_odd hpc), fun hpc =>
    ⟨fun ht => stops (fetch_of_no_record hpc ht), fun r ht =>
      ⟨fun c hr => stops (fetch_of_rejected hpc ht hr), fun hr => stops (fetch_of_rejected hpc ht hr),
        fun i hr hw => stops (fetch_of_ill_formed_text hpc ht hr hw)⟩⟩⟩

end Sys2Proof.Machine
end

/-! ## Word accesses and operands -/

section
namespace Sys2Proof.Machine

/-- What MemRead answers where the checks stop it. -/
theorem memRead_eq_error_of_memCheck {s : State} {a : Word} {e : Stop} (h : memCheck s a = some e) :
    memRead s a = .error e := by
  rw [memRead, h]

/-- MemRead depends on the bytes of its word, the text and `MemMap` only. -/
theorem memRead_congr {s t : State} {a : Word} (htext : t.text = s.text) (hmap : t.memMap = s.memMap)
    (hmem : ∀ k, k < 4 → memByte t.mem (a.toNat + k) = memByte s.mem (a.toNat + k)) :
    memRead t a = memRead s a := by
  have hcheck : memCheck t a = memCheck s a := by rw [memCheck, memCheck, htext, hmap]
  have h0 := hmem 0 (by decide)
  rw [Nat.add_zero] at h0
  rw [memRead, memRead, hcheck, h0, hmem 1 (by decide), hmem 2 (by decide), hmem 3 (by decide)]

/-- Settles O21: the bytes of the word are those written, and another aligned word has no byte in common
with it. -/
theorem wordReadsBackAfterWrite : Obligations.WordReadsBackAfterWrite := by
  intro s t a v h
  obtain ⟨hc, rfl⟩ := memWrite_eq_ok.1 h
  have ha := memCheck_eq_none_iff.1 hc
  obtain ⟨hword, hkeep⟩ := stores_putWord s a v
  refine ⟨memRead_runs ha hword, fun b hb => ?_⟩
  by_cases hb4 : b.toNat % 4 = 0
  · have hne : b.toNat ≠ a.toNat := fun e => hb (BitVec.eq_of_toNat_eq e)
    have ha4 := ha.1
    exact memRead_congr rfl rfl fun k hk => hkeep _ (by omega)
  · have hstop (u : State) : memCheck u b = some (.fault (.misalignedAccess b)) := if_pos hb4
    rw [memRead_eq_error_of_memCheck (hstop _), memRead_eq_error_of_memCheck (hstop _)]

theorem memCheck_of_misaligned {s : State} {a : Word} (h : a.toNat % 4 ≠ 0) :
    memCheck s a = some (.fault (.misalignedAccess a)) := if_pos h

theorem memCheck_of_text {s : State} {a : Word} (h4 : a.toNat % 4 = 0)
    (h : ∃ x ∈ wordAddrs a, inText s.text x = true) : memCheck s a = some (.refuse .textAccess) := by
  rw [memCheck, if_neg (by simpa using h4), if_pos (List.any_eq_true.2 h)]

theorem memCheck_of_outside {s : State} {a : Word} (h4 : a.toNat % 4 = 0)
    (ht : ∀ x ∈ wordAddrs a, inText s.text x = false)
    (h : ∃ x ∈ wordAddrs a, inMemMap s.memMap x = false) :
    memCheck s a = some (.fault (.accessFault a)) := by
  have hany : (wordAddrs a).any (inText s.text) = false := by simpa using ht
  have hall : (wordAddrs a).all (inMemMap s.memMap) = false := by simpa using h
  rw [memCheck, if_neg (by simpa using h4), hany, hall]
  rfl

/-- MemRead at an accessible address one of whose bytes holds no value (R44). -/
theorem memRead_of_no_value {s : State} {a : Word} (h : accessible s a)
    (hk : ∃ k, k < 4 ∧ memByte s.mem (a.toNat + k) = none) :
    memRead s a = .error (.fault (.unwrittenRead a)) := by
  obtain ⟨k, hk, hnone⟩ := hk
  rw [memRead, memCheck_eq_none_iff.2 h]
  dsimp only
  split
  · next h0 h1 h2 h3 => interval_cases k <;> simp_all
  · rfl

/-- Settles O22: the shared checks stop both accesses alike, and at an accessible address the bytes decide. -/
theorem wordAccessChecksInOrder : Obligations.WordAccessChecksInOrder := by
  intro s a v
  have stops {e : Stop} (h : memCheck s a = some e) : memRead s a = .error e ∧ memWrite s a v = .error e :=
    ⟨memRead_eq_error_of_memCheck h, memWrite_eq_error.2 h⟩
  exact ⟨fun h => stops (memCheck_of_misaligned h), fun h4 ht => stops (memCheck_of_text h4 ht),
    fun h4 ht hm => stops (memCheck_of_outside h4 ht hm), fun ha =>
    ⟨memRead_of_no_value ha, memRead_runs ha, _, memWrite_runs ha v, stores_putWord s a v⟩⟩

/-- A `v` operand is its field's number (R69). -/
theorem toNat_valOf (v : Val) : (valOf v).toNat = v.toNat := by
  have := v.isLt
  rw [valOf, BitVec.toNat_setWidth]
  exact Nat.mod_eq_of_lt (by omega)

/-- Settles O23: the operand forms by their definitions, an address modulo 2^32. -/
theorem operandsHaveTheirValues : Obligations.OperandsHaveTheirValues := by
  refine fun s r i v => ⟨toNat_valOf v, rfl, rfl, rfl, toNat_valOf v, rfl, ?_, ?_, ?_⟩
  · exact BitVec.add_zero _
  · exact BitVec.zero_add _
  · exact BitVec.toNat_add _ _

end Sys2Proof.Machine
end


/-! ## The bits of a record -/

section
namespace Sys2Proof.Laws

open Sys2Proof.Machine

/-- A selector word is its twelve bits above `val`, then `val` (R75). -/
theorem sel_eq_append (s : BitVec 19) : s = s.extractLsb' 7 12 ++ s.extractLsb' 0 7 :=
  BitVec.extractLsb'_eq_self.symm.trans
    (BitVec.extractLsb'_append_extractLsb'_eq_extractLsb' (start₁ := 0) (len₁ := 7) rfl).symm

/-- The mask of a row that leaves `val` free keeps the twelve bits above it. -/
theorem and_mask_eq_append (s : BitVec 19) : s &&& 0x7FF80 = s.extractLsb' 7 12 ++ 0#7 := by
  have hmask : (0x7FF80 : BitVec 19) = BitVec.allOnes 12 ++ 0#7 := by decide
  have hval : s.extractLsb' 0 7 &&& 0#7 = 0 := BitVec.and_zero
  conv_lhs => rw [sel_eq_append s, hmask, BitVec.and_append, BitVec.and_allOnes, hval]
  rfl

/-- The bits above `val` in the numbering of a record's bits are those of its selector word. -/
theorem extractLsb'_bitsOfRecord (r : Record) :
    (bitsOfRecord r).extractLsb' 7 12 = r.sel.extractLsb' 7 12 := by
  unfold bitsOfRecord
  exact BitVec.extractLsb'_append_eq_of_add_le (by decide)

/-- Only a record of MAD has MAD's bits above `val`. -/
theorem sel_and_mask_eq_madSel {r : Record}
    (h : (bitsOfRecord r).extractLsb' 7 12 = madSel.extractLsb' 7 12) : r.sel &&& 0x7FF80 = madSel := by
  rw [and_mask_eq_append, ← extractLsb'_bitsOfRecord, h]
  decide

/-- Where a record has MAD's implied IMM set, its IMM bit is read back. -/
theorem imm_recordOfBits {r : Record} (h : r.sel &&& 0x7FF80 = madSel → r.imm = true) :
    (recordOfBits (bitsOfRecord r)).imm = r.imm := by
  have hbit : (bitsOfRecord r).getLsbD 27 = r.imm := by
    simp only [bitsOfRecord, BitVec.getLsbD_append]
    simp
  have himm : (recordOfBits (bitsOfRecord r)).imm =
      (r.imm || (bitsOfRecord r).extractLsb' 7 12 == madSel.extractLsb' 7 12) := by
    rw [← hbit]
    rfl
  rw [himm]
  cases hi : r.imm with
  | true => rfl
  | false =>
    rw [Bool.false_or, beq_eq_false_iff_ne]
    intro hmad
    rw [h (sel_and_mask_eq_madSel hmad)] at hi
    cases hi

/-- Settles O2: each field is read from the place it was put at. -/
theorem recordBitsRoundTrip : Obligations.RecordBitsRoundTrip := by
  intro r h
  have himm := imm_recordOfBits h
  have hfields : recordOfBits (bitsOfRecord r) = { r with imm := (recordOfBits (bitsOfRecord r)).imm } := by
    unfold recordOfBits bitsOfRecord Record.sel
    congr 1
    -- The appended fields are taken apart before their widths are added up.
    all_goals
      simp (disch := omega) only [BitVec.extractLsb'_append_eq_of_le,
        BitVec.extractLsb'_append_eq_of_add_le, BitVec.getLsbD_append]
    all_goals simp
  rw [hfields, himm]

end Sys2Proof.Laws
end


/-! ## What the decoder accepts -/

section
namespace Sys2Proof.Laws

open Sys2Proof.Machine

/-! ### The instructions of a format -/

/-- What the checks of a record (R74) and its length (R63) ask of an instruction. -/
structure Traits where
  /-- it has an `adr` operand -/
  adr : Bool := false
  /-- it has the optional `<ri1>` -/
  opt : Bool := false
  /-- it has an `ri1` or `i` operand -/
  ri : Bool := false
  /-- it is NOP -/
  nop : Bool := false
  /-- it is MAD, whose operand is always the immediate -/
  mad : Bool := false
  /-- it takes the argument parcel -/
  arg : Bool := false
  /-- two of its operands ask for the argument parcel -/
  two : Bool := false
  /-- its shift or rotate count -/
  count : Option Val := none

/-- NOP. -/
def isNop : Instr → Bool
  | .nop => true
  | _ => false

/-- MAD. -/
def isMad : Instr → Bool
  | .mad _ _ _ => true
  | _ => false

/-- The traits of an instruction. -/
def traits (i : Instr) : Traits where
  adr := takesAdr i
  opt := takesOpt i
  ri := takesRi i
  nop := isNop i
  mad := isMad i
  arg := takesArg i
  two := (optOperands? i).any fun p => twoArgs p.1 p.2
  count := shiftCount? i

/-- The instructions of a format have the operands the format reads. -/
def Faithful : Format → Prop
  | .parcel k => k = .nop
  | .none k | .unknown k => traits k = {}
  | .v k | .unknownV k => ∀ v, traits (k v) = {}
  | .unknownFlag k => ∀ b, traits (k b) = {}
  | .r k => ∀ r, traits (k r) = {}
  | .vR k => ∀ v r, traits (k v r) = {}
  | .vr k => ∀ n, traits (k n) = {}
  | .adr k | .condAdr k => ∀ a, traits (k a) = { adr := true, arg := adrArg a }
  | .vAdr k => ∀ v a, traits (k v a) = { adr := true, arg := adrArg a }
  | .adrR k => ∀ a d, traits (k a d) = { adr := true, arg := adrArg a }
  | .rAdr k => ∀ r a, traits (k r a) = { adr := true, arg := adrArg a }
  | .riR k | .ri k => ∀ src d, traits (k src d) = { ri := true, arg := srcArg src }
  | .riRFlag k => ∀ b src d, traits (k b src d) = { ri := true, arg := srcArg src }
  | .vRiR k => ∀ v src d, traits (k v src d) = { ri := true, arg := srcArg src, count := some v }
  | .vRR k => ∀ v r d, traits (k v r d) = { count := some v }
  | .iRR k => ∀ i r d, traits (k i r d) = { ri := true, mad := true, arg := true }
  | .optRiAdr k => ∀ m a, traits (k m a) =
      { adr := true, opt := true, ri := true, arg := optArg m || adrArg a, two := twoArgs m a }

/-- Every row of the opcode table is faithful to its format. -/
theorem opcodeTable_faithful : ∀ row ∈ opcodeTable, Faithful row.format := by
  simp only [opcodeTable, tableSys, tableAlu, tableMulti, tableShift, tableBit, tableAtom, tableFlow,
    tableXfer, List.forall_mem_append, List.forall_mem_cons, List.not_mem_nil, false_implies,
    implies_true, and_true, true_and, Faithful]
  and_intros <;> intros <;> rfl

/-! ### The operands read from a record -/

/-- Operand after operand: a reading goes on when both parts do. -/
theorem bind_eq_ok {α β : Type} {x : Except Reject α} {g : α → Except Reject β} {b : β} :
    x >>= g = .ok b ↔ ∃ a, x = .ok a ∧ g a = .ok b := by
  cases x with
  | error e => exact ⟨nofun, nofun⟩
  | ok a => exact ⟨fun h => ⟨a, rfl, h⟩, fun ⟨_, ha, h⟩ => by cases ha; exact h⟩

/-- An `ri1` operand takes the argument parcel when IMM is set. -/
theorem srcArg_of_readSrc {r : Record} {src : RI} (h : readSrc r = .ok src) : srcArg src = r.imm := by
  unfold readSrc at h
  cases hi : r.imm with
  | true => rw [hi] at h; cases h; rfl
  | false =>
    rw [hi] at h
    cases hr : regOf r.r1 with
    | error e => rw [hr] at h; cases h
    | ok a => rw [hr] at h; cases h; rfl

/-- An optional `<ri1>` operand takes the argument parcel when P1 and IMM are set. -/
theorem optArg_of_readOpt {r : Record} {m : Option RI} (h : readOpt r = .ok m) :
    optArg m = (r.p1 && r.imm) := by
  unfold readOpt at h
  cases hp : r.p1 with
  | false => rw [hp] at h; cases h; rfl
  | true =>
    rw [hp] at h
    cases hr : readSrc r with
    | error e => rw [hr] at h; cases h
    | ok src => rw [hr] at h; cases h; exact srcArg_of_readSrc hr

/-- An `adr` operand takes the argument parcel when NDX is set. -/
theorem adrArg_of_readAdr {rb : BitVec 4} {r : Record} {a : Adr} (h : readAdr rb r = .ok a) :
    adrArg a = r.ndx := by
  have hoff : a.off = if r.ndx then some r.arg else none := by
    unfold readAdr at h
    cases hg : r.reg with
    | false => rw [hg] at h; cases h; rfl
    | true =>
      rw [hg] at h
      cases hr : regOf rb with
      | error e => rw [hr] at h; cases h
      | ok b => rw [hr] at h; cases h; rfl
  rw [adrArg, hoff]
  cases r.ndx <;> rfl

/-- Two operands ask for the argument parcel when each does (R60). -/
theorem twoArgs_eq (m : Option RI) (a : Adr) : twoArgs m a = (optArg m && adrArg a) := by
  rcases m with _ | (_ | _) <;> rcases a with ⟨_, _ | _⟩ <;> rfl

/-- Whether the operands a format reads take the argument parcel. -/
def readsArg (f : Format) (r : Record) : Bool :=
  if f.hasAdr then (if f.hasOpt then r.p1 && r.imm || r.ndx else r.ndx)
  else if f.needsImm then true
  else if f.hasImm then r.imm
  else false

/-- The traits of the instruction a format reads. -/
def traitsRead (f : Format) (r : Record) : Traits where
  adr := f.hasAdr
  opt := f.hasOpt
  ri := f.hasImm
  mad := f.needsImm
  arg := readsArg f r
  two := if f.hasOpt then r.p1 && r.imm && r.ndx else false
  count := if f.hasCount then some r.val else none

/-- A record is read as an instruction of its format. -/
theorem traits_of_read {f : Format} {r : Record} {i : Instr} (hf : Faithful f) (hw : f.whole = false)
    (h : f.read r = .ok i) : traits i = traitsRead f r := by
  cases f with
  | parcel k => cases hw
  | none k | unknown k =>
    cases h
    exact hf
  | v k | unknownV k | unknownFlag k =>
    cases h
    exact hf _
  | r k | vr k =>
    obtain ⟨x, -, hi⟩ := bind_eq_ok.1 h
    cases hi
    exact hf x
  | vR k =>
    obtain ⟨x, -, hi⟩ := bind_eq_ok.1 h
    cases hi
    exact hf _ x
  | adr k | condAdr k =>
    obtain ⟨a, ha, hi⟩ := bind_eq_ok.1 h
    cases hi
    rw [hf, adrArg_of_readAdr ha]
    rfl
  | vAdr k =>
    obtain ⟨a, ha, hi⟩ := bind_eq_ok.1 h
    cases hi
    rw [hf, adrArg_of_readAdr ha]
    rfl
  | adrR k =>
    obtain ⟨a, ha, hi⟩ := bind_eq_ok.1 h
    obtain ⟨d, -, hi⟩ := bind_eq_ok.1 hi
    cases hi
    rw [hf, adrArg_of_readAdr ha]
    rfl
  | rAdr k =>
    obtain ⟨x, -, hi⟩ := bind_eq_ok.1 h
    obtain ⟨a, ha, hi⟩ := bind_eq_ok.1 hi
    cases hi
    rw [hf, adrArg_of_readAdr ha]
    rfl
  | riR k | riRFlag k | ri k | vRiR k =>
    obtain ⟨src, hs, hi⟩ := bind_eq_ok.1 h
    obtain ⟨d, -, hi⟩ := bind_eq_ok.1 hi
    cases hi
    rw [hf, srcArg_of_readSrc hs]
    rfl
  | vRR k | iRR k =>
    obtain ⟨x, -, hi⟩ := bind_eq_ok.1 h
    obtain ⟨d, -, hi⟩ := bind_eq_ok.1 hi
    cases hi
    exact hf _ x d
  | optRiAdr k =>
    obtain ⟨m, hm, hi⟩ := bind_eq_ok.1 h
    obtain ⟨a, ha, hi⟩ := bind_eq_ok.1 hi
    cases hi
    rw [hf, twoArgs_eq, optArg_of_readOpt hm, adrArg_of_readAdr ha]
    rfl

end Sys2Proof.Laws
end


/-! ## The checks of a record, each where those before it pass -/

section
namespace Sys2Proof.Laws

open Sys2Proof.Machine

/-- A check that passes leaves the later ones. -/
theorem ite_some_eq_none {α : Type} {p : Prop} [Decidable p] {a : α} {o : Option α} :
    (if p then some a else o) = none ↔ ¬ p ∧ o = none := by
  split <;> simp [*]

section
variable {f : Format} {r : Record} (hw : f.whole = false)
include hw

/-- Everything the checks of R74 between WF_SELECTOR and WF_PC ask of a record that is not NOP's. -/
theorem check_eq_none_iff : f.check r = none ↔ (r.imm && r.ndx) = false ∧
    (r.imm && !f.hasImm || f.needsImm && !r.imm) = false ∧ ((r.ndx || r.reg) && !f.hasAdr) = false ∧
    (r.p1 && !f.hasOpt || f.hasOpt && r.imm && !r.p1) = false ∧
    (f.hasCount && !goodCount r.val) = false ∧ (f.hasCond && decide (0x0C < r.val.toNat)) = false := by
  simp only [Format.check, hw, ite_some_eq_none, Bool.not_eq_true, Bool.false_eq_true, if_false, and_true]

theorem check_oneArg (h : (r.imm && r.ndx) = true) : f.check r = some .oneArg := by
  simp only [Format.check, hw, h, Bool.false_eq_true, if_false, if_true]

theorem check_imm (h1 : (r.imm && r.ndx) = false)
    (h : (r.imm && !f.hasImm || f.needsImm && !r.imm) = true) : f.check r = some .imm := by
  simp only [Format.check, hw, h1, h, Bool.false_eq_true, if_false, if_true]

theorem check_adr (h1 : (r.imm && r.ndx) = false)
    (h2 : (r.imm && !f.hasImm || f.needsImm && !r.imm) = false)
    (h : ((r.ndx || r.reg) && !f.hasAdr) = true) : f.check r = some .adr := by
  simp only [Format.check, hw, h1, h2, h, Bool.false_eq_true, if_false, if_true]

theorem check_p1 (h1 : (r.imm && r.ndx) = false)
    (h2 : (r.imm && !f.hasImm || f.needsImm && !r.imm) = false)
    (h3 : ((r.ndx || r.reg) && !f.hasAdr) = false)
    (h : (r.p1 && !f.hasOpt || f.hasOpt && r.imm && !r.p1) = true) : f.check r = some .p1 := by
  simp only [Format.check, hw, h1, h2, h3, h, Bool.false_eq_true, if_false, if_true]

end

/-! ### NOP's record -/

/-- The record of all 1-bits is NOP, whatever its other fields are (R76). -/
theorem decode_of_nopSel {r : Record} (h : r.sel = nopSel) : decode r = .ok .nop :=
  decode_of_check_none (row := ⟨"NOP", 0x7FFFF, 0x7FFFF, .parcel .nop⟩) (by rw [h]; rfl) rfl

/-- NOP has no argument parcel (R63, R76). -/
theorem hasArg_of_nopSel {r : Record} (h : r.sel = nopSel) : r.hasArg = false := by
  rw [Record.hasArg, h]
  rfl

/-- Another record has one exactly when IMM or NDX is set. -/
theorem hasArg_of_ne_nopSel {r : Record} (h : r.sel ≠ nopSel) : r.hasArg = (r.imm || r.ndx) := by
  rw [Record.hasArg, bne_iff_ne.2 h, Bool.true_and]

/-- NOP's row is the one that is recognised from the whole selector word. -/
theorem whole_iff_nopSel {s : BitVec 19} {row : Row} (h : rowOf s = some row) :
    row.format.whole = true ↔ s = nopSel := by
  have hrows : ∀ row ∈ opcodeTable, row.format.whole = true →
      row.mask = nopSel ∧ row.pattern = nopSel := by
    decide +kernel
  constructor
  · intro hw
    obtain ⟨hm, hs⟩ := rowOf_eq_some_iff.1 h
    obtain ⟨hmask, hpattern⟩ := hrows row hm hw
    have hall : s &&& nopSel = s := BitVec.and_allOnes
    simpa only [Row.selects, hmask, hpattern, hall, beq_iff_eq] using hs
  · rintro rfl
    cases h
    rfl

/-! ### What an accepted record may hold -/

/-- The formats with both an address and an `ri1` operand are those with the optional one (R68). -/
theorem hasOpt_eq (f : Format) : f.hasOpt = (f.hasAdr && f.hasImm) := by
  cases f <;> rfl

/-- The operands of a record that passes its checks take the argument parcel when IMM or NDX is set. -/
theorem readsArg_of_check {f : Format} {r : Record} (hw : f.whole = false) (hc : f.check r = none) :
    readsArg f r = (r.imm || r.ndx) := by
  obtain ⟨-, himm, hadr, hp1, -, -⟩ := (check_eq_none_iff hw).1 hc
  have hopt := hasOpt_eq f
  unfold readsArg
  split_ifs with ha ho hn hi
  · cases hm : r.imm <;> simp_all
  · cases hm : r.imm <;> simp_all
  · simp_all
  · simp_all
  · simp_all

/-- What the checks leave of an accepted record that is not NOP's: its instruction is well formed, and the
record has an argument parcel exactly when the instruction takes one. -/
theorem wellFormed_of_accepted {f : Format} {r : Record} {i : Instr} (hw : f.whole = false)
    (hc : f.check r = none) (ht : traits i = traitsRead f r) :
    wellFormed i = true ∧ takesArg i = (r.imm || r.ndx) := by
  obtain ⟨honeArg, -, -, -, hcount, -⟩ := (check_eq_none_iff hw).1 hc
  have htwo : (optOperands? i).any (fun p => twoArgs p.1 p.2) = false := by
    refine (congrArg Traits.two ht).trans ?_
    simp only [traitsRead, Bool.and_assoc, honeArg, Bool.and_false, ite_self]
  have hwfOneArg : wfOneArg i = true := by
    unfold wfOneArg
    cases ho : optOperands? i with
    | none => rfl
    | some p => simpa [ho] using htwo
  have hshift : wfShift i = true := by
    have hcount' : shiftCount? i = if f.hasCount then some r.val else none := congrArg Traits.count ht
    rw [wfShift, hcount']
    cases hk : f.hasCount with
    | false => rfl
    | true => simpa [hk] using hcount
  exact ⟨by rw [wellFormed, hwfOneArg, hshift]; rfl,
    (congrArg Traits.arg ht).trans (readsArg_of_check hw hc)⟩

/-! ### Stray presence bits

A record that passes its checks fails the check of a presence bit that its format has no operand for, as
the checks before that one still pass. -/

section
variable {r : Record} {row : Row} (hrow : rowOf r.sel = some row) (hw : row.format.whole = false)
include hrow hw

theorem missing_imm (hn : row.format.needsImm = true) :
    decode { r with imm := false } = .error (.illFormed .imm) :=
  decode_of_check_some (r := { r with imm := false }) hrow (check_imm hw (by simp) (by simp [hn]))

theorem imm_and_ndx : decode { r with imm := true, ndx := true } = .error (.illFormed .oneArg) :=
  decode_of_check_some (r := { r with imm := true, ndx := true }) hrow (check_oneArg hw rfl)

variable (hc : row.format.check r = none)
include hc

theorem stray_adr (ha : row.format.hasAdr = false) : r.ndx = false ∧ r.reg = false ∧
    decode { r with reg := true } = .error (.illFormed .adr) ∧
    (r.imm = false → decode { r with ndx := true } = .error (.illFormed .adr)) := by
  obtain ⟨honeArg, himm, hadr, -, -, -⟩ := (check_eq_none_iff hw).1 hc
  have hbits : r.ndx = false ∧ r.reg = false := by simpa [ha] using hadr
  refine ⟨hbits.1, hbits.2, ?_, fun hi => ?_⟩
  · exact decode_of_check_some (r := { r with reg := true }) hrow
      (check_adr hw honeArg himm (by simp [ha]))
  · exact decode_of_check_some (r := { r with ndx := true }) hrow
      (check_adr hw (by simp [hi]) himm (by simp [ha]))

theorem stray_p1 (ho : row.format.hasOpt = false) :
    r.p1 = false ∧ decode { r with p1 := true } = .error (.illFormed .p1) := by
  obtain ⟨honeArg, himm, hadr, hp1, -, -⟩ := (check_eq_none_iff hw).1 hc
  refine ⟨by simpa [ho] using hp1, ?_⟩
  exact decode_of_check_some (r := { r with p1 := true }) hrow
    (check_p1 hw honeArg himm hadr (by simp [ho]))

theorem stray_imm_without_p1 (ho : row.format.hasOpt = true) (hn : r.ndx = false) :
    decode { r with imm := true, p1 := false } = .error (.illFormed .p1) := by
  obtain ⟨-, -, hadr, -, -, -⟩ := (check_eq_none_iff hw).1 hc
  have hadrImm : row.format.hasAdr = true ∧ row.format.hasImm = true := by
    simpa [ho] using hasOpt_eq row.format
  exact decode_of_check_some (r := { r with imm := true, p1 := false }) hrow
    (check_p1 hw (by simp [hn]) (by simp [hadrImm]) hadr (by simp [ho]))

theorem stray_imm (hi : row.format.hasImm = false) : r.imm = false ∧
    (r.ndx = false → decode { r with imm := true } = .error (.illFormed .imm)) := by
  obtain ⟨-, himm, -, -, -, -⟩ := (check_eq_none_iff hw).1 hc
  have hbit : r.imm = false := by
    simp only [hi, Bool.not_false, Bool.and_true, Bool.or_eq_false_iff] at himm
    exact himm.1
  exact ⟨hbit, fun hn => decode_of_check_some (r := { r with imm := true }) hrow
    (check_imm hw (by simp [hn]) (by simp [hi]))⟩

end

/-- Settles O4: an accepted record passes the checks of its row, and the row's format says what its
instruction has. -/
theorem decodedIsWellFormed : Obligations.DecodedIsWellFormed := by
  intro r i h
  obtain ⟨row, hrow, hc, hread⟩ := decode_eq_ok.1 h
  by_cases hsel : r.sel = nopSel
  · cases h.symm.trans (decode_of_nopSel hsel)
    exact ⟨rfl, hasArg_of_nopSel hsel, fun _ _ _ _ _ => decode_of_nopSel hsel, fun hn => absurd rfl hn⟩
  have hw : row.format.whole = false := Bool.eq_false_iff.2 fun hw => hsel ((whole_iff_nopSel hrow).1 hw)
  have ht := traits_of_read (opcodeTable_faithful row (rowOf_eq_some_iff.1 hrow).1) hw hread
  have hnop : i ≠ .nop := fun e => by cases e; cases congrArg Traits.nop ht
  have hadr : takesAdr i = row.format.hasAdr := congrArg Traits.adr ht
  have hopt : takesOpt i = row.format.hasOpt := congrArg Traits.opt ht
  have hri : takesRi i = row.format.hasImm := congrArg Traits.ri ht
  have hmad : isMad i = row.format.needsImm := congrArg Traits.mad ht
  obtain ⟨hwf, harg⟩ := wellFormed_of_accepted hw hc ht
  rw [hadr, hopt, hri]
  refine ⟨hwf, (hasArg_of_ne_nopSel hsel).trans harg.symm, fun e => absurd e hnop, fun _ =>
    ⟨stray_adr hrow hw hc, stray_p1 hrow hw hc, stray_imm_without_p1 hrow hw hc, stray_imm hrow hw hc, ?_,
      imm_and_ndx hrow hw⟩⟩
  rintro ⟨c, x, d, rfl⟩
  exact missing_imm hrow hw hmad.symm

/-! ### R15 as an operand -/

/-- What a reader answers by the register fields it uses: refused when one of them is 15, read when none
is. -/
def Reads {α : Type} (x : Except Reject α) (l : List (BitVec 4)) : Prop :=
  (15 ∈ l → x = .error .pcOperand) ∧ (15 ∉ l → ∃ a, x = .ok a)

theorem reads_ok {α : Type} (a : α) : Reads (.ok a) [] := ⟨nofun, fun _ => ⟨a, rfl⟩⟩

theorem reads_regOf (x : BitVec 4) : Reads (regOf x) [x] := by
  have h15 : x.toNat < 15 ↔ x ≠ 15 := by
    have := x.isLt
    rw [ne_eq, ← BitVec.toNat_inj, show (15 : BitVec 4).toNat = 15 from rfl]
    omega
  unfold regOf
  refine ⟨fun h => dif_neg ?_, fun h => ⟨_, dif_pos (h15.2 fun e => h (by simp [e]))⟩⟩
  rw [h15, not_not]
  exact (List.mem_singleton.1 h).symm

theorem Reads.bind {α β : Type} {x : Except Reject α} {g : α → Except Reject β} {l l' : List (BitVec 4)}
    (hx : Reads x l) (hg : ∀ a, Reads (g a) l') : Reads (x >>= g) (l ++ l') := by
  by_cases h : 15 ∈ l
  · rw [hx.1 h]
    exact ⟨fun _ => rfl, fun hn => absurd (List.mem_append_left _ h) hn⟩
  · obtain ⟨a, ha⟩ := hx.2 h
    have : 15 ∈ l ++ l' ↔ 15 ∈ l' := List.mem_append.trans (or_iff_right h)
    rw [ha, Reads, this]
    exact hg a

theorem Reads.map {α β : Type} {x : Except Reject α} {l : List (BitVec 4)} (hx : Reads x l) (g : α → β) :
    Reads (x.map g) l := by
  refine ⟨fun h => by rw [hx.1 h]; rfl, fun h => ?_⟩
  obtain ⟨a, ha⟩ := hx.2 h
  exact ⟨g a, by rw [ha]; rfl⟩

theorem Reads.bindPure {α β : Type} {x : Except Reject α} {l : List (BitVec 4)} (hx : Reads x l)
    (g : α → β) : Reads (do return g (← x)) l := by
  have := hx.bind (g := fun a => .ok (g a)) fun a => reads_ok (g a)
  rwa [List.append_nil] at this

theorem reads_readSrc (r : Record) : Reads (readSrc r) (if r.imm then [] else [r.r1]) := by
  unfold readSrc
  split
  · exact reads_ok _
  · exact (reads_regOf _).map _

theorem reads_readOpt (r : Record) :
    Reads (readOpt r) (if r.p1 then (if r.imm then [] else [r.r1]) else []) := by
  unfold readOpt
  split
  · exact (reads_readSrc r).map _
  · exact reads_ok _

theorem reads_readVr (r : Record) : Reads (readVr r) (if r.val1 then [] else [r.r1]) := by
  unfold readVr
  split
  · exact reads_ok _
  · exact (reads_regOf _).map _

theorem reads_readAdr (rb : BitVec 4) (r : Record) : Reads (readAdr rb r) (if r.reg then [rb] else []) := by
  unfold readAdr
  dsimp only
  split
  · exact (reads_regOf _).map _
  · exact reads_ok _

/-- A format is read by the register fields it uses. -/
theorem reads_format (f : Format) (r : Record) : Reads (f.read r) (usedRegs f r) := by
  cases f with
  | parcel k | none k | v k | unknown k | unknownV k | unknownFlag k => exact reads_ok _
  | optRiAdr k => exact (reads_readOpt r).bind fun m => (reads_readAdr r.r2 r).bindPure (k m)
  | vr k => exact (reads_readVr r).bindPure k
  | adr k | condAdr k => exact (reads_readAdr r.r1 r).bindPure k
  | vR k => exact (reads_regOf r.r1).bindPure (k r.val)
  | r k => exact (reads_regOf r.r1).bindPure k
  | vAdr k => exact (reads_readAdr r.r2 r).bindPure (k r.val)
  | riR k | ri k => exact (reads_readSrc r).bind fun s => (reads_regOf r.r2).bindPure (k s)
  | riRFlag k => exact (reads_readSrc r).bind fun s => (reads_regOf r.r2).bindPure (k r.flag1 s)
  | vRiR k => exact (reads_readSrc r).bind fun s => (reads_regOf r.r2).bindPure (k r.val s)
  | vRR k => exact (reads_regOf r.r1).bind fun x => (reads_regOf r.r2).bindPure (k r.val x)
  | iRR k => exact (reads_regOf r.r1).bind fun x => (reads_regOf r.r2).bindPure (k r.arg x)
  | adrR k => exact (reads_readAdr r.r1 r).bind fun a => (reads_regOf r.r2).bindPure (k a)
  | rAdr k => exact (reads_regOf r.r1).bind fun x => (reads_readAdr r.r2 r).bindPure (k x)

/-- Settles O6: a record that passes the checks is what its format reads. -/
theorem fieldFifteenIsRefused : Obligations.FieldFifteenIsRefused := by
  intro r row hrow hc
  rw [decode_of_check_none hrow hc]
  exact reads_format row.format r

end Sys2Proof.Laws
end


/-! ## The selectors of the table -/

section
namespace Sys2Proof.Laws

open Sys2Proof.Machine

/-- The decoder refuses by WF_SELECTOR exactly where no row selects the record (R78): no other check and no
reading answers it. -/
theorem decode_eq_selector_iff {r : Record} :
    decode r = .error (.illFormed .selector) ↔ rowOf r.sel = none := by
  refine ⟨fun h => ?_, decode_of_rowOf_none⟩
  cases hrow : rowOf r.sel with
  | none => rfl
  | some row =>
    have hne : row.format.check r ≠ some .selector := by
      unfold Format.check
      split_ifs <;> simp
    cases hc : row.format.check r with
    | some c =>
      rw [decode_of_check_some hrow hc] at h
      cases h
      exact absurd hc hne
    | none =>
      rw [decode_of_check_none hrow hc] at h
      have hreads := reads_format row.format r
      by_cases h15 : 15 ∈ usedRegs row.format r
      · cases (hreads.1 h15).symm.trans h
      · obtain ⟨i, hi⟩ := hreads.2 h15
        cases hi.symm.trans h

/-- The flag bits in a selector word (R75). -/
theorem sel_flags (r : Record) : r.sel.extractLsb' 7 3 =
    BitVec.ofBool r.val1 ++ BitVec.ofBool r.flag1 ++ BitVec.ofBool r.flag2 := by
  apply BitVec.eq_of_getLsbD_eq
  intro i hi
  simp only [Record.sel, BitVec.getLsbD_extractLsb', BitVec.getLsbD_append]
  interval_cases i <;> simp

theorem sel_op (r : Record) : r.sel.extractLsb' 10 5 = r.op := by
  unfold Record.sel
  simp (disch := omega) only [BitVec.extractLsb'_append_eq_of_le,
    BitVec.extractLsb'_append_eq_of_add_le]
  exact BitVec.extractLsb'_eq_self

theorem sel_val (r : Record) : r.sel.extractLsb' 0 7 = r.val := BitVec.extractLsb'_append_eq_right


/-- The bits of a selector word above `val` are its unit, operation and flag bits. -/
theorem sel_fields_eq_append (s : BitVec 19) : s.extractLsb' 7 12 =
    s.extractLsb' 15 4 ++ s.extractLsb' 10 5 ++ s.extractLsb' 7 3 := by
  have hop : s.extractLsb' 15 4 ++ s.extractLsb' 10 5 = s.extractLsb' 10 9 :=
    BitVec.extractLsb'_append_extractLsb'_eq_extractLsb' (start₁ := 10) (len₁ := 5) rfl
  rw [hop]
  exact (BitVec.extractLsb'_append_extractLsb'_eq_extractLsb' (start₁ := 7) (len₁ := 3) rfl).symm

/-- The selector word is one R77 lists, by the fields of the word. -/
def namedSel (s : BitVec 19) : Prop :=
  s = nopSel ∨ s.extractLsb' 7 3 ∈ rowFlags (s.extractLsb' 15 4).toNat (s.extractLsb' 10 5).toNat ∧
    (s.extractLsb' 15 4 = 6 → s.extractLsb' 10 5 = 1 → (s.extractLsb' 0 7).toNat ≤ 0x0C)

theorem namedSelector_iff {r : Record} : namedSelector r = true ↔ namedSel r.sel := by
  have hcond : (!(r.unit == 6 && r.op == 1) || decide (r.val.toNat ≤ 0x0C)) = true ↔
      (r.unit = 6 → r.op = 1 → r.val.toNat ≤ 0x0C) := by
    rw [← and_imp, imp_iff_not_or]
    simp [imp_iff_not_or]
  rw [namedSelector, namedSel, sel_unit, sel_op, sel_val, sel_flags, Bool.or_eq_true, Bool.and_eq_true,
    hcond, beq_iff_eq, List.contains_iff_mem]
  rfl

/-- What the row's mask and pattern say of the words it selects: they are NOP's, or their unit and
operation are the row's, their flag bits are of `rowFlags`, and a branch's condition code is one of R255. -/
def selectsNamed (row : Row) : Prop :=
  row.mask = nopSel ∧ row.pattern = nopSel ∨
    row.mask.extractLsb' 15 4 = BitVec.allOnes 4 ∧ row.mask.extractLsb' 10 5 = BitVec.allOnes 5 ∧
    (∀ f : BitVec 3, f &&& row.mask.extractLsb' 7 3 = row.pattern.extractLsb' 7 3 →
      f ∈ rowFlags (row.pattern.extractLsb' 15 4).toNat (row.pattern.extractLsb' 10 5).toNat) ∧
    (row.pattern.extractLsb' 15 4 = 6 → row.pattern.extractLsb' 10 5 = 1 →
      row.mask.extractLsb' 0 7 = BitVec.allOnes 7 ∧ (row.pattern.extractLsb' 0 7).toNat ≤ 0x0C)

theorem opcodeTable_selectsNamed : ∀ row ∈ opcodeTable, selectsNamed row := by
  unfold selectsNamed
  decide +kernel

/-- A field whose bits the row's mask keeps is the pattern's. -/
theorem extractLsb'_of_mask {s m p : BitVec 19} {a n : Nat} (h : s &&& m = p)
    (hm : m.extractLsb' a n = BitVec.allOnes n) : s.extractLsb' a n = p.extractLsb' a n := by
  rw [← h, BitVec.extractLsb'_and, hm, BitVec.and_allOnes]

/-- A word that selects a row is one R77 lists. -/
theorem namedSel_of_rowOf {s : BitVec 19} {row : Row} (h : rowOf s = some row) : namedSel s := by
  obtain ⟨hm, hs⟩ := rowOf_eq_some_iff.1 h
  simp only [Row.selects, beq_iff_eq] at hs
  rcases opcodeTable_selectsNamed row hm with ⟨hmask, hpattern⟩ | ⟨hunit, hop, hflags, hcond⟩
  · rw [hmask, hpattern] at hs
    exact .inl (BitVec.and_allOnes.symm.trans hs)
  · have hf : s.extractLsb' 7 3 &&& row.mask.extractLsb' 7 3 = row.pattern.extractLsb' 7 3 := by
      rw [← hs, BitVec.extractLsb'_and]
    refine .inr ?_
    rw [extractLsb'_of_mask hs hunit, extractLsb'_of_mask hs hop]
    refine ⟨hflags _ hf, fun hu ho => ?_⟩
    obtain ⟨hval, hle⟩ := hcond hu ho
    rwa [extractLsb'_of_mask hs hval]

/-- The unit, operation and flag bits R77 lists select a row, whatever `val` is, but for the branches. -/
theorem rowOf_selOf_of_rowFlags : ∀ (u : BitVec 4) (o : BitVec 5), ∀ f ∈ rowFlags u.toNat o.toNat,
    ((u = 6 ∧ o = 1) ∧ f = 0b100) ∨
      (rowOf (selOf u o f)).any (fun row => 0x7FF80 &&& row.mask = row.mask) = true := by
  decide +kernel

/-- The condition codes of R255 select a branch. -/
theorem rowOf_branch : ∀ v : Val, v.toNat ≤ 0x0C →
    rowOf ((6#4 ++ 1#5 ++ 0b100#3 : BitVec 12) ++ v) ≠ none := by
  have hsome : ∀ v : Val, v.toNat ≤ 0x0C →
      (rowOf ((6#4 ++ 1#5 ++ 0b100#3 : BitVec 12) ++ v)).isSome = true := by
    decide +kernel
  exact fun v hv => Option.isSome_iff_ne_none.1 (hsome v hv)

/-- A word R77 lists selects a row. -/
theorem rowOf_ne_none_of_namedSel {s : BitVec 19} (h : namedSel s) : rowOf s ≠ none := by
  rcases h with rfl | ⟨hflags, hcond⟩
  · exact nofun
  · rcases rowOf_selOf_of_rowFlags _ _ _ hflags with ⟨⟨hu, ho⟩, hf⟩ | hany
    · have hs := sel_eq_append s
      rw [sel_fields_eq_append, hu, ho, hf] at hs
      rw [hs]
      exact rowOf_branch _ (hcond hu ho)
    · obtain ⟨row, hrow, hmask⟩ := (Option.any_eq_true _ _).1 hany
      have hs : s &&& row.mask = s &&& 0x7FF80 &&& row.mask := by
        rw [BitVec.and_assoc, of_decide_eq_true hmask]
      rw [and_mask_eq_append, sel_fields_eq_append] at hs
      rw [rowOf_of_agree hrow hs]
      exact nofun

/-- No unit code from 8 up has rows (R77). -/
theorem rowFlags_of_unit_ge : ∀ (u : BitVec 4) {o : BitVec 5}, 8 ≤ u.toNat →
    rowFlags u.toNat o.toNat = [] := by
  decide +kernel

/-- Settles O5: a record selects a row exactly when R77 lists its selector; the named cases are not
listed. -/
theorem unnamedSelectorsAreRefused : Obligations.UnnamedSelectorsAreRefused := by
  have hiff (r : Record) : decode r = .error (.illFormed .selector) ↔ namedSelector r = false := by
    rw [decode_eq_selector_iff, Bool.eq_false_iff, ne_eq, namedSelector_iff]
    refine ⟨fun h hn => rowOf_ne_none_of_namedSel hn h, fun h => ?_⟩
    cases hrow : rowOf r.sel with
    | none => rfl
    | some row => exact absurd (namedSel_of_rowOf hrow) h
  refine ⟨hiff, fun r h => (hiff r).2 (Bool.eq_false_iff.2 fun hn => ?_)⟩
  rcases namedSelector_iff.1 hn with hnop | ⟨hflags, hcond⟩
  · have hunit : r.unit = 15 := by
      rw [← sel_unit, hnop]
      rfl
    rcases h with ⟨-, h⟩ | ⟨h, -⟩ | ⟨h, -⟩ | ⟨h, -⟩
    · exact h hnop
    all_goals
      rw [hunit] at h
      cases h
  · rw [sel_unit, sel_op, sel_flags] at hflags
    rw [sel_unit, sel_op, sel_val] at hcond
    rcases h with ⟨h, -⟩ | ⟨hu, ho⟩ | ⟨hu, ho, hv⟩ | ⟨hu, ho, hv, hf⟩
    · rw [rowFlags_of_unit_ge r.unit h] at hflags
      cases hflags
    · rw [hu, ho] at hflags
      cases hflags
    · exact absurd (hcond hu ho) (Nat.not_le.2 hv)
    · rw [hu, ho, hv, hf] at hflags
      have hnone : ∀ b : Bool, BitVec.ofBool true ++ BitVec.ofBool b ++ BitVec.ofBool true ∉
          rowFlags 3 0 := by decide
      exact hnone r.flag1 hflags

/-- Settles O7: the words of the table, evaluated. -/
theorem tableWordsDecode : Obligations.TableWordsDecode := by
  unfold Obligations.TableWordsDecode
  decide +kernel

end Sys2Proof.Laws
end


/-! ## The SYS unit -/

section
namespace Sys2Proof.Machine

/-! ### Frames -/

/-- Setting `pc` changes `pc` only. -/
theorem onlyGoesTo_setPc (s : State) (a : Word) : onlyGoesTo a s (s.setPc a) := by
  simp [onlyGoesTo, keepsRegsBut, keepsMem, keepsControl]

/-- Going on changes `pc` only. -/
theorem onlyGoesTo_advance (s : State) (b : Bool) : onlyGoesTo (nextAddr s.pc b) s (s.advance b) :=
  onlyGoesTo_setPc s _

/-- Leaving `pc` changes nothing. -/
theorem onlyGoesTo_self (s : State) : onlyGoesTo s.pc s s := onlyGoesTo_setPc s s.pc

/-- A register write is the same before and after a write of the flags. -/
theorem setReg_setFlags (s : State) (d : Reg) (v : Word) (f : Flags) :
    { (s.setFlags f).setReg d v with flags := s.flags } = s.setReg d v := by
  unfold State.setReg
  split <;> rfl

/-- A register write is the same before and after a drawing of an undetermined word. -/
theorem setReg_nextDraw (s : State) (d : Reg) (v : Word) :
    { s.nextDraw.setReg d v with draws := s.draws } = s.setReg d v := by
  unfold State.setReg
  split <;> rfl

/-! ### What completes in every state -/

/-- Settles O24: NOP's record is read before its fields are looked at; its meaning goes on. -/
theorem nopOnlyAdvances : Obligations.NopOnlyAdvances :=
  ⟨fun _ h => ⟨Laws.decode_of_nopSel h, Laws.hasArg_of_nopSel h⟩, goOn_completes false⟩

/-- Settles O25: each only goes on. -/
theorem hintsAndBarriersOnlyAdvance : Obligations.HintsAndBarriersOnlyAdvance := fun s =>
  ⟨fun _ => goOn_completes false s, fun adr => goOn_completes (adrArg adr) s, goOn_completes false s,
    goOn_completes false s, goOn_completes false s, goOn_completes false s⟩

/-- Settles O30: the outcome is set, and a run that has one takes no step. -/
theorem rstAndWfeEndTheRun : Obligations.RstAndWfeEndTheRun := by
  refine fun s => ⟨fun n => ?_, fun v =>
    ⟨_, rfl, rfl, onlyGoesTo_self s, step_of_issue_error (issue_of_outcome rfl)⟩⟩
  have hreboot : (vrOf s n != 0) = decide ((vrOf s n).toNat ≠ 0) := by
    rw [Bool.eq_iff_iff, bne_iff_ne, decide_eq_true_iff, ne_eq, ← BitVec.toNat_inj]
    rfl
  rw [← hreboot]
  exact ⟨_, rfl, rfl, onlyGoesTo_self s, step_of_issue_error (issue_of_outcome rfl)⟩

/-- Settles O31: the line is the address divided by the size of a line. -/
theorem rclReservesTheLine : Obligations.RclReservesTheLine := by
  intro s adr
  have hpos : 0 < Config.cacheline := Nat.succ_pos _
  refine ⟨_, _, rfl, rfl, Nat.div_mul_le_self _ _, ?_, onlyGoesTo_advance s (adrArg adr)⟩
  rw [Nat.mul_comm]
  exact Nat.lt_mul_div_succ _ hpos

/-- Settles O32: a register result after a drawing. -/
theorem rpcWritesOneRegister : Obligations.RpcWritesOneRegister := by
  intro s v d
  refine ⟨(s.nextDraw.setReg d s.drawn).advance false, rfl, by simp, ?_⟩
  have hframe : { (s.nextDraw.setReg d s.drawn).advance false with draws := s.draws } =
      (s.setReg d s.drawn).advance false :=
    congrArg (State.advance · false) (setReg_nextDraw s d s.drawn)
  rw [hframe]
  exact onlyWrites_setReg_advance s d _ false

/-- Settles O29: INT adds the bit of its line to the pending ones. -/
theorem intMakesPending : Obligations.IntMakesPending := by
  intro s n
  refine ⟨fun h => ?_, fun h => if_pos h⟩
  refine ⟨_, execInt_eq_next.2 ⟨h, rfl⟩, fun k => ?_, onlyGoesTo_advance s false⟩
  have hbit : (1#32 <<< (vrOf s n).toNat).getLsbD k = (k == (vrOf s n).toNat) := by
    show (BitVec.twoPow 32 _).getLsbD k = _
    rw [BitVec.getLsbD_twoPow, decide_eq_true h, Bool.true_and, Bool.eq_iff_iff,
      decide_eq_true_iff, beq_iff_eq, eq_comm]
  rw [State.advance_ipend, BitVec.getLsbD_or, hbit]

/-! ### HLT, STI and CLI -/

/-- Without an address nothing is saved. -/
theorem maskOp_of_no_address (m : Option RI) (s : State) (f : Option Word → State → State) :
    maskOp m ⟨none, none⟩ s f = .next ((f (m.map (srcOf s)) s).advance (optArg m)) :=
  maskOp_eq_next.2 ⟨by cases m with | none => rfl | some src => cases src <;> rfl,
    s, .inl ⟨rfl, rfl⟩, by simp [adrArg]⟩

/-- With an accessible address the mask is stored first. -/
theorem maskOp_of_address {m : Option RI} {save : Adr} {s : State} {f : Option Word → State → State}
    (ht : twoArgs m save = false) (hp : adrPresent save = true) (ha : accessible s (eaOf s save)) :
    maskOp m save s f = .next ((f (m.map (srcOf s))
      { s with mem := putWord s.mem (eaOf s save).toNat s.imask }).advance (optArg m || adrArg save)) :=
  maskOp_eq_next.2 ⟨ht, _, .inr ⟨hp, ha, rfl⟩, rfl⟩

/-- Settles O26: the mask is the old one changed by the operand. -/
theorem maskInstructionsChangeTheMask : Obligations.MaskInstructionsChangeTheMask := by
  refine fun s m => ⟨⟨_, (exec_hlt m _ s).trans (maskOp_of_no_address m s _), rfl, ?_,
    onlyGoesTo_advance s _⟩, ⟨_, (exec_sti m _ s).trans (maskOp_of_no_address m s _), ?_,
    onlyGoesTo_advance s _⟩, ⟨_, (exec_cli m _ s).trans (maskOp_of_no_address m s _), ?_,
    onlyGoesTo_advance s _⟩⟩ <;> cases m <;> rfl

/-- Settles O27: the old mask is stored, then the mask is changed as without an address. -/
theorem maskInstructionsSaveTheOldMask : Obligations.MaskInstructionsSaveTheOldMask := by
  intro s m adr hp ht ha
  simp only [List.forall_mem_cons, List.not_mem_nil, false_implies, implies_true, and_true]
  refine ⟨⟨_, (exec_hlt m adr s).trans (maskOp_of_address ht hp ha), rfl, ?_, stores_putWord s _ _,
    onlyGoesTo_advance s _⟩, ⟨_, (exec_sti m adr s).trans (maskOp_of_address ht hp ha), rfl, ?_,
    stores_putWord s _ _, onlyGoesTo_advance s _⟩,
    ⟨_, (exec_cli m adr s).trans (maskOp_of_address ht hp ha), rfl, ?_, stores_putWord s _ _,
    onlyGoesTo_advance s _⟩⟩ <;> cases m <;> rfl

/-- Where the two operands ask for the argument parcel, or the save stops, the shape stops. -/
theorem maskOp_stops (m : Option RI) (save : Adr) (s : State) (f : Option Word → State → State) :
    (twoArgs m save = true → maskOp m save s f = .refused (.illFormed .oneArg)) ∧
      (twoArgs m save = false → adrPresent save = true → ∀ e,
        memWrite s (eaOf s save) s.imask = .error e → maskOp m save s f = stopWith e s) := by
  refine ⟨fun h => ?_, fun ht hp e he => ?_⟩
  · simp only [maskOp, h, if_true, refuse]
  · simp only [maskOp, ht, hp, he, Bool.false_eq_true, if_false, if_true]

/-- Settles O28: the three are of the one shape. -/
theorem maskInstructionsStop : Obligations.MaskInstructionsStop := by
  intro s m adr
  simp only [List.forall_mem_cons, List.not_mem_nil, false_implies, implies_true, and_true]
  rw [exec_hlt, exec_sti, exec_cli]
  exact ⟨maskOp_stops m adr s _, maskOp_stops m adr s _, maskOp_stops m adr s _⟩

/-- Settles O33: a store of the drawn word. -/
theorem stxStoresOneWord : Obligations.StxStoresOneWord := by
  refine fun s v adr => ⟨fun ha => ⟨_, (execStx_eq_next (v := v)).2 ⟨ha, rfl⟩,
    stores_putWord s _ _, rfl,
    onlyGoesTo_advance s _⟩, fun e he => ?_⟩
  show execStx v adr s = _
  rw [execStx, he]

end Sys2Proof.Machine
end


/-! ## The FLOW and XFER units -/

section
namespace Sys2Proof.Machine

/-! ### Jumps, branches, calls and returns -/

/-- A call changes LR and `pc` only. -/
theorem onlyWrites_call (s : State) (v a : Word) (b : Bool) :
    onlyWrites lrReg v b s { (s.setReg lrReg v).setPc a with pc := nextAddr s.pc b } :=
  onlyWrites_setReg_advance s lrReg v b

/-- Settles O51: the target is the address before LR is written. -/
theorem jumpsCallsAndReturns : Obligations.JumpsCallsAndReturns := fun s _ =>
  ⟨⟨_, rfl, onlyGoesTo_setPc s _⟩, ⟨_, rfl, onlyGoesTo_setPc s _⟩,
    ⟨_, rfl, rfl, onlyWrites_call s _ _ _⟩⟩

/-- Settles O52: each branch is the one shape at its condition. -/
theorem branchesFollowTheFlags : Obligations.BranchesFollowTheFlags := by
  intro s adr
  simp only [List.forall_mem_cons, List.not_mem_nil, false_implies, implies_true, and_true]
  and_intros <;> exact branch_completes _ adr s

/-- Settles O53: CSR leaves the sequentially next address in LR, and RET goes to LR. -/
theorem returnFollowsTheCall : Obligations.ReturnFollowsTheCall := by
  intro s t u v adr hcall hlr hret
  have ht : (s.setReg lrReg (nextAddr s.pc (adrArg adr))).setPc (eaOf s adr) = t := by
    cases hcall
    rfl
  have hv : u.setPc (u.reg lrReg) = v := by
    cases hret
    rfl
  rw [← hv, State.setPc_pc, hlr, ← ht, State.setPc_reg, State.reg_setReg_self]
  rfl

/-! ### Loads and stores -/

/-- Settles O54: the word is read, then written to the register. -/
theorem ldrLoadsTheWord : Obligations.LdrLoadsTheWord := by
  refine fun s adr d w => ⟨fun ha hw => ⟨_, execLdr_eq_next.2 ⟨w, memRead_runs ha hw, rfl⟩,
    onlyWrites_setReg_advance s d w _⟩, fun e he => ?_⟩
  show execLdr adr d s = _
  rw [execLdr, he]

/-- Settles O55: the register is stored. -/
theorem strStoresTheWord : Obligations.StrStoresTheWord := by
  refine fun s r adr => ⟨fun ha => ⟨_, execStr_eq_next.2 ⟨ha, rfl⟩, stores_putWord s _ _,
    onlyGoesTo_advance s _⟩, fun e he => ?_⟩
  show execStr r adr s = _
  rw [execStr, he]

/-- Settles O56: the register is stored below SP, then SP is written. -/
theorem pshStoresBelowSp : Obligations.PshStoresBelowSp := by
  refine fun s r => ⟨fun ha => ⟨_, execPsh_eq_next.2 ⟨ha, rfl⟩, stores_putWord s _ _,
    onlyWrites_setReg_advance s spReg _ _⟩, fun e he => ?_⟩
  show execPsh r s = _
  rw [execPsh, pushAddr, he]

/-- What a register reads after POP. -/
theorem reg_pop (s : State) (d r : Reg) (v w : Word) (b : Bool) :
    (((s.setReg spReg v).setReg d w).advance b).reg r =
      if r = d then (if d = 0 then 0 else w) else if r = spReg then v else s.reg r := by
  rw [State.advance_reg, State.reg_setReg, State.reg_setReg]
  rfl

/-- Settles O57: SP is moved, then the register is written. -/
theorem popLoadsAtSp : Obligations.PopLoadsAtSp := by
  refine fun s d w => ⟨fun ha hw => ⟨_, execPop_eq_next.2 ⟨w, memRead_runs ha hw, rfl⟩, ?_⟩,
    fun e he => ?_⟩
  · refine ⟨?_, fun hd => ?_, fun r hr => ?_, by simp, fun a => by simp, by simp [keepsControl], by simp,
      by simp [nextAddr]⟩
    · rw [holds, reg_pop, if_pos rfl]
    · rw [reg_pop, if_neg (Ne.symm hd), if_pos rfl]
    · simp only [List.mem_cons, List.not_mem_nil, or_false, not_or] at hr
      rw [reg_pop, if_neg hr.1, if_neg hr.2]
  · show execPop d s = _
    rw [execPop, he]

/-- After a word is stored, it is what MemRead reads in any state with that memory, text and `MemMap`. -/
theorem memRead_of_stored {s t : State} {a v : Word} (ha : accessible s a)
    (hmem : t.mem = putWord s.mem a.toNat v) (htext : t.text = s.text) (hmap : t.memMap = s.memMap) :
    memRead t a = .ok v := by
  refine memRead_runs ?_ ?_
  · unfold accessible at ha ⊢
    rwa [htext, hmap]
  · rw [hmem]
    exact (stores_putWord s a v).1

/-- Settles O58: the pop reads the word the push stored, at the address the push left in SP. -/
theorem popUndoesPsh : Obligations.PopUndoesPsh := by
  intro s t r d hpush hd0 hdsp
  obtain ⟨ha, rfl⟩ := execPsh_eq_next.1 (show execPsh r s = .next t from hpush)
  have hsp : (({ s with mem := putWord s.mem (pushAddr s).toNat (s.reg r) }.setReg spReg
      (pushAddr s)).advance false).reg spReg = pushAddr s := by
    rw [State.advance_reg, State.reg_setReg_self]
    rfl
  refine ⟨_, execPop_eq_next.2 ⟨s.reg r, ?_, rfl⟩, ?_, ?_, fun x hx => ?_, fun a => ?_⟩
  · rw [hsp]
    exact memRead_of_stored ha rfl rfl rfl
  · rw [reg_pop, if_pos rfl, if_neg hd0]
  · rw [reg_pop, if_neg (Ne.symm hdsp), if_pos rfl, hsp, pushAddr]
    exact BitVec.sub_add_cancel _ _
  · rw [reg_pop, if_neg (by simpa using hx), hsp]
    split
    · next h =>
      subst h
      exact BitVec.sub_add_cancel _ _
    · next h =>
      rw [State.advance_reg, State.reg_setReg_ne _ _ h]
      rfl
  · simp

/-- Settles O59: CLI stores the mask and clears it, LDR loads the stored word, STI sets its bits. -/
theorem savedMaskIsRestored : Obligations.SavedMaskIsRestored := by
  intro s t u v a d hd hcli hldr hsti
  obtain ⟨-, x, hx, rfl⟩ := maskOp_eq_next.1 ((exec_cli _ _ s).symm.trans hcli)
  obtain ⟨hp, -⟩ | ⟨-, ha, rfl⟩ := hx
  · cases hp
  obtain ⟨w, hw, rfl⟩ := execLdr_eq_next.1 (show execLdr _ d _ = .next u from hldr)
  obtain rfl : w = s.imask := Except.ok.inj (hw.symm.trans (memRead_of_stored ha rfl rfl rfl))
  cases hsti.symm.trans ((exec_sti _ _ _).trans (maskOp_of_no_address (some (.reg d)) _ _))
  refine ⟨rfl, ?_⟩
  simp [stiMask, cliMask, srcOf, State.reg_setReg_self, hd]

end Sys2Proof.Machine
end


/-! ## The ALU unit -/

section
namespace Sys2Proof.Machine

/-! ### Logical and arithmetic results -/

/-- The selector word of a record with an `ri1` operand and a destination is that of its fields. -/
theorem sel_putSrc_putR2 (src : RI) (d : Reg) (w : Record) : (putSrc src (putR2 d w)).sel = w.sel :=
  Laws.putSrc_sel src _

/-- Settles O34: the results are the bitwise operations of words. -/
theorem logicalResultsBitByBit : Obligations.LogicalResultsBitByBit := by
  intro s src d
  simp only [List.forall_mem_cons, List.not_mem_nil, false_implies, implies_true, and_true]
  refine ⟨⟨sel_putSrc_putR2 .., _, _, rfl, onlyWrites_setReg_advance s d _ _, fun k hk => ?_⟩,
    ⟨sel_putSrc_putR2 .., _, _, rfl, onlyWrites_setReg_advance s d _ _, fun k _ => ?_⟩,
    ⟨sel_putSrc_putR2 .., _, _, rfl, onlyWrites_setReg_advance s d _ _, fun k _ => ?_⟩,
    ⟨sel_putSrc_putR2 .., _, _, rfl, onlyWrites_setReg_advance s d _ _, fun k _ => ?_⟩⟩
  · rw [BitVec.getLsbD_not, decide_eq_true hk, Bool.true_and]
  · exact BitVec.getLsbD_and
  · exact BitVec.getLsbD_or
  · exact BitVec.getLsbD_xor

/-- Sum and difference as integers modulo 2^32. -/
theorem toNat_add_int (a b : Word) : ((a + b).toNat : Int) = ((a.toNat : Int) + b.toNat) % 2 ^ 32 := by
  rw [BitVec.toNat_add]
  omega

theorem toNat_sub_int (a b : Word) : ((a - b).toNat : Int) = ((a.toNat : Int) - b.toNat) % 2 ^ 32 := by
  have := a.isLt
  have := b.isLt
  rw [BitVec.toNat_sub]
  omega

/-- Settles O35: each result is a sum or a difference of words. -/
theorem arithmeticResultsWrap : Obligations.ArithmeticResultsWrap := by
  intro s src d
  simp only [List.forall_mem_cons, List.not_mem_nil, false_implies, implies_true, and_true]
  refine ⟨⟨sel_putSrc_putR2 .., _, _, rfl, onlyWrites_setReg_advance s d _ _, ?_⟩,
    ⟨Laws.putR1_sel .., _, _, rfl, onlyWrites_setReg_advance s d _ _, ?_⟩,
    ⟨Laws.putR1_sel .., _, _, rfl, onlyWrites_setReg_advance s d _ _, ?_⟩,
    ⟨sel_putSrc_putR2 .., _, _, rfl, onlyWrites_setReg_advance s d _ _, ?_⟩,
    ⟨sel_putSrc_putR2 .., _, _, rfl, onlyWrites_setReg_advance s d _ _, ?_⟩⟩
  · rw [toNat_sub_int]
    simp
  · exact toNat_add_int _ 1
  · exact toNat_sub_int _ 1
  · exact toNat_add_int _ _
  · exact toNat_sub_int _ _

/-- The carry is what the sum leaves out. -/
theorem toNat_add_addCarry (a b : Word) :
    (a + b).toNat + 2 ^ 32 * (addCarry a b).toNat = a.toNat + b.toNat := by
  have := a.isLt
  have := b.isLt
  rw [BitVec.toNat_add, addCarry]
  by_cases h : 2 ^ 32 ≤ a.toNat + b.toNat
  · rw [decide_eq_true h, Bool.toNat_true]
    omega
  · rw [decide_eq_false h, Bool.toNat_false]
    omega

/-- The borrow is what the difference has too much. -/
theorem toNat_sub_subBorrow (a b : Word) :
    ((a - b).toNat : Int) - 2 ^ 32 * (subBorrow a b).toNat = a.toNat - b.toNat := by
  have := a.isLt
  have := b.isLt
  rw [toNat_sub_int, subBorrow]
  by_cases h : a.toNat < b.toNat
  · rw [decide_eq_true h, Bool.toNat_true]
    omega
  · rw [decide_eq_false h, Bool.toNat_false]
    omega

/-- A register write with CF written changes that register, CF and `pc` only. -/
theorem onlyWrites_setCf (s : State) (c : Bool) (d : Reg) (v : Word) (b : Bool) :
    onlyWrites d v b s { ((s.setCf c).setReg d v).advance b with flags := s.flags } := by
  have hframe : { ((s.setCf c).setReg d v).advance b with flags := s.flags } = (s.setReg d v).advance b :=
    congrArg (State.advance · b) (setReg_setFlags s d v { s.flags with cf := c })
  rw [hframe]
  exact onlyWrites_setReg_advance s d v b

/-- Settles O36: CF is written before the register and is the carry or the borrow of the result. -/
theorem adcAndSbbStoreTheCarry : Obligations.AdcAndSbbStoreTheCarry := by
  intro s src d
  refine ⟨⟨_, _, rfl, ?_, ?_, onlyWrites_setCf s (addCarry (s.reg d) (srcOf s src)) d _ _⟩,
    ⟨_, _, rfl, ?_, ?_, onlyWrites_setCf s (subBorrow (s.reg d) (srcOf s src)) d _ _⟩⟩
  · simpa using toNat_add_addCarry (s.reg d) (srcOf s src)
  · simp
  · simpa using toNat_sub_subBorrow (s.reg d) (srcOf s src)
  · simp

/-! ### CMP and the branches after it -/

/-- The sign bit as a bound on the natural number. -/
theorem signBit_eq (v : Word) : signBit v = decide (2 ^ 31 ≤ v.toNat) := BitVec.msb_eq_decide v

/-- A word as a two's complement number. -/
theorem toInt_eq_ite (v : Word) :
    v.toInt = if 2 ^ 31 ≤ v.toNat then (v.toNat - 2 ^ 32 : Int) else v.toNat := by
  rw [BitVec.toInt_eq_toNat_cond]
  split <;> split <;> omega

/-- The signed difference of two words fits 32 bits. -/
def fits (a b : Word) : Prop := -2 ^ 31 ≤ a.toInt - b.toInt ∧ a.toInt - b.toInt < 2 ^ 31

theorem cmpFlags_zf (a b : Word) : (cmpFlags a b).zf = true ↔ a = b := by
  rw [cmpFlags, beq_iff_eq]
  exact sub_eq_zero

theorem cmpFlags_cf (a b : Word) : (cmpFlags a b).cf = true ↔ a.toNat < b.toNat := decide_eq_true_iff

theorem cmpFlags_sf (a b : Word) : (cmpFlags a b).sf = true ↔ (a - b).toInt < 0 := by
  show signBit (a - b) = true ↔ _
  have := (a - b).isLt
  rw [signBit_eq, toInt_eq_ite, decide_eq_true_iff]
  split <;> omega

/-- SF is the sign of the signed difference exactly where OF is clear. -/
theorem cmpFlags_ovf (a b : Word) : (cmpFlags a b).ovf = true ↔ ¬ fits a b := by
  show (signBit a != signBit b && signBit (a - b) != signBit a) = true ↔ _
  have := a.isLt
  have := b.isLt
  have hsub := toNat_sub_int a b
  have := (a - b).isLt
  simp only [signBit_eq, fits, toInt_eq_ite, Bool.and_eq_true, bne_iff_ne, ne_eq, decide_eq_decide]
  split <;> split <;> omega

theorem cmpFlags_sf_ne_ovf (a b : Word) :
    ((cmpFlags a b).sf != (cmpFlags a b).ovf) = true ↔ a.toInt < b.toInt := by
  rw [bne_iff_ne, ne_eq, Bool.eq_iff_iff, cmpFlags_sf, cmpFlags_ovf, fits]
  have := a.isLt
  have := b.isLt
  have hsub := toNat_sub_int a b
  have := (a - b).isLt
  simp only [toInt_eq_ite]
  split <;> split <;> split <;> omega

/-- Settles O37: the flags of the difference, and the frame of an instruction that goes on. -/
theorem cmpSetsTheFlags : Obligations.CmpSetsTheFlags := fun s _ _ =>
  ⟨_, rfl, cmpFlags_zf _ _, cmpFlags_cf _ _, cmpFlags_ovf _ _, cmpFlags_sf _ _, onlyGoesTo_advance s _⟩

/-- A flag that holds exactly when a relation does is its decision. -/
theorem eq_decide_of_iff {c : Bool} {p : Prop} [Decidable p] (h : c = true ↔ p) : c = decide p :=
  Bool.eq_iff_iff.2 (h.trans decide_eq_true_iff.symm)

theorem not_eq_decide_of_iff {c : Bool} {p q : Prop} [Decidable q] (h : c = true ↔ p) (hq : ¬ p ↔ q) :
    (!c) = decide q :=
  eq_decide_of_iff (by rw [Bool.not_eq_true', ← Bool.not_eq_true, h, hq])

theorem eq_not_decide_of_iff {c : Bool} {p : Prop} [Decidable p] (h : c = true ↔ ¬ p) : c = !decide p :=
  (eq_decide_of_iff h).trans decide_not

/-- The ordered relations of two words, by ZF, SF and OF. -/
theorem cmpFlags_le (a b : Word) :
    ((cmpFlags a b).zf || (cmpFlags a b).sf != (cmpFlags a b).ovf) = true ↔ a.toInt ≤ b.toInt := by
  rw [Bool.or_eq_true, cmpFlags_zf, cmpFlags_sf_ne_ovf, ← BitVec.toInt_inj]
  omega

theorem cmpFlags_ge (a b : Word) :
    ((cmpFlags a b).sf == (cmpFlags a b).ovf) = true ↔ b.toInt ≤ a.toInt := by
  have h := cmpFlags_sf_ne_ovf a b
  rw [bne_iff_ne] at h
  rw [beq_iff_eq, ← not_iff_not, ← ne_eq, h]
  omega

theorem cmpFlags_gt (a b : Word) :
    (!(cmpFlags a b).zf && (cmpFlags a b).sf == (cmpFlags a b).ovf) = true ↔ b.toInt < a.toInt := by
  rw [Bool.and_eq_true, cmpFlags_ge, Bool.not_eq_true', ← Bool.not_eq_true, cmpFlags_zf, ← BitVec.toInt_inj]
  omega

/-- A branch in a state with the registers of another, where its condition is known. -/
theorem branch_compares {s t : State} {adr : Adr} (hea : eaOf t adr = eaOf s adr) {c c' : Bool}
    (h : c = c') : ∃ u, branch c adr t = .next u ∧
      onlyGoesTo (if c' then eaOf s adr else nextAddr t.pc (adrArg adr)) t u := by
  subst h
  rw [← hea]
  exact branch_completes c adr t

/-- Settles O38: each condition on the flags of the difference is the relation of its branch. -/
theorem cmpThenBranchCompares : Obligations.CmpThenBranchCompares := by
  intro s t src r adr h
  cases h
  have hea : eaOf ((s.setFlags (cmpFlags (s.reg r) (srcOf s src))).advance (srcArg src)) adr = eaOf s adr :=
    rfl
  have hzf := cmpFlags_zf (s.reg r) (srcOf s src)
  have hcf := cmpFlags_cf (s.reg r) (srcOf s src)
  have hovf := cmpFlags_ovf (s.reg r) (srcOf s src)
  simp only [List.forall_mem_cons, List.not_mem_nil, false_implies, implies_true, and_true]
  refine ⟨branch_compares hea (eq_decide_of_iff hzf), branch_compares hea (eq_decide_of_iff hzf),
    branch_compares hea (not_eq_decide_of_iff hzf Iff.rfl),
    branch_compares hea (eq_decide_of_iff (cmpFlags_sf_ne_ovf _ _)),
    branch_compares hea (eq_decide_of_iff (cmpFlags_le _ _)),
    branch_compares hea (eq_decide_of_iff (cmpFlags_gt _ _)),
    branch_compares hea (eq_decide_of_iff (cmpFlags_ge _ _)),
    branch_compares hea (eq_decide_of_iff hcf), branch_compares hea (not_eq_decide_of_iff hcf Nat.not_lt),
    branch_compares hea (eq_not_decide_of_iff hovf),
    branch_compares hea (not_eq_decide_of_iff hovf not_not), branch_compares hea rfl,
    branch_compares hea rfl⟩

/-! ### Extensions -/

/-- The low bits as a natural number. -/
theorem toNat_zeroExtendFrom {w : Nat} (hw : w ≤ 32) (v : Word) :
    (zeroExtendFrom w v).toNat = v.toNat % 2 ^ w := by
  rw [zeroExtendFrom, BitVec.toNat_setWidth, BitVec.toNat_setWidth]
  exact Nat.mod_eq_of_lt ((Nat.mod_lt _ (Nat.two_pow_pos w)).trans_le (Nat.pow_le_pow_right two_pos hw))

/-- The low bits as a two's complement number. -/
theorem toInt_signExtendFrom {w : Nat} (hw : w ≤ 32) (v : Word) :
    (signExtendFrom w v).toInt = (v.toNat : Int).bmod (2 ^ w) := by
  rw [signExtendFrom, BitVec.toInt_signExtend_of_le hw, BitVec.toInt_eq_toNat_bmod, BitVec.toNat_setWidth,
    Int.natCast_emod, Int.emod_bmod]

/-- Settles O39: the width is one of 1 to 32. -/
theorem zexAndSexExtend : Obligations.ZexAndSexExtend := by
  have hw : Config.extSrcBits ≤ 32 := Config.extSrcBitsLessOne.isLt
  exact fun s src d => ⟨Nat.succ_pos _, hw,
    ⟨_, _, rfl, onlyWrites_setReg_advance s d _ _, toNat_zeroExtendFrom hw _⟩,
    ⟨_, _, rfl, onlyWrites_setReg_advance s d _ _, toInt_signExtendFrom hw _⟩⟩

end Sys2Proof.Machine
end


/-! ## The MULTI unit -/

section
namespace Sys2Proof.Machine

/-- The record of MAD selects MAD's row (R77). -/
theorem encode_mad_sel (i : Word) (r d : Reg) : (encode (.mad i r d)).sel = 0x11800 :=
  (Laws.putArg_sel i _).trans ((Laws.putR1_sel r _).trans (Laws.putR2_sel d _))

/-- Settles O40: the words' own product and sum; a MAD record without IMM fails WF_IMM. -/
theorem mulAndMadKeepLowWord : Obligations.MulAndMadKeepLowWord := by
  intro s d r
  refine ⟨fun src => ⟨sel_putSrc_putR2 .., _, _, rfl, onlyWrites_setReg_advance s d _ _,
    BitVec.toNat_mul _ _⟩, fun rec hsel himm => ?_, fun i => ⟨encode_mad_sel i r d, rfl, _, _, rfl,
    onlyWrites_setReg_advance s d _ _, ?_⟩⟩
  · refine Laws.decode_of_check_some (row := ⟨"MAD", 0x11800, 0x7FF80, .iRR .mad⟩) ?_ ?_
    · rw [hsel]
      rfl
    · exact Laws.check_imm rfl (by rw [himm]; rfl) (by rw [himm]; rfl)
  · rw [BitVec.toNat_add, BitVec.toNat_mul, Nat.mod_add_mod]

/-- A product of two words as two's complement numbers fits 64 bits with room. -/
theorem toInt_mul_bounds (a b : Word) :
    -2 ^ 62 ≤ a.toInt * b.toInt ∧ a.toInt * b.toInt ≤ 2 ^ 62 := by
  have ha := a.toInt_lt
  have ha' := a.le_toInt
  have hb := b.toInt_lt
  have hb' := b.le_toInt
  norm_num at *
  constructor <;> nlinarith

/-- The high word of the signed product is its quotient by 2^32, rounded down. -/
theorem toInt_mulHigh (a b : Word) : (mulHigh true a b).toInt = a.toInt * b.toInt / 2 ^ 32 := by
  obtain ⟨hlo, hhi⟩ := toInt_mul_bounds a b
  have hnat : (mulHigh true a b).toNat = (a.toInt * b.toInt % 2 ^ 64).toNat / 2 ^ 32 % 2 ^ 32 := by
    rw [mulHigh, BitVec.extractLsb'_toNat, BitVec.toNat_ofInt, Nat.shiftRight_eq_div_pow]
    rfl
  rw [toInt_eq_ite, hnat]
  generalize a.toInt * b.toInt = p at *
  split <;> omega

/-- Settles O41: MLH writes that word. -/
theorem mlhKeepsHighWord : Obligations.MlhKeepsHighWord := fun s src d =>
  ⟨_, _, rfl, onlyWrites_setReg_advance s d _ _, toInt_mulHigh (s.reg d) (srcOf s src)⟩

/-! ### Divisions -/

/-- The faults of a signed division (R142). -/
theorem divideFault_of_zero {n d : Word} (h : d = 0) : divideFault true n d = some .divideByZero := by
  subst h
  rfl

theorem divideFault_of_overflow {n d : Word} (hn : n.toInt = -2 ^ 31) (hd : d.toInt = -1) :
    divideFault true n d = some .divideOverflow := by
  simp [divideFault, intOf, hn, hd]

theorem divideFault_eq_none {n d : Word} (h0 : d.toInt ≠ 0) (h : ¬ (n.toInt = -2 ^ 31 ∧ d.toInt = -1)) :
    divideFault true n d = none := by
  simp only [divideFault, intOf, if_true, h0, if_false, true_and, h]

/-- A division that faults faults in both instructions. -/
theorem exec_div_of_fault {src : RI} {d : Reg} {s : State} {f : Fault}
    (h : divideFault true (s.reg d) (srcOf s src) = some f) : exec (.div src d) s = .fault f := by
  show execDiv src d s = _
  rw [execDiv, Config.muldivSigned, h]
  rfl

theorem exec_rem_of_fault {src : RI} {d : Reg} {s : State} {f : Fault}
    (h : divideFault true (s.reg d) (srcOf s src) = some f) : exec (.rem src d) s = .fault f := by
  show execRem src d s = _
  rw [execRem, Config.muldivSigned, h]
  rfl

/-- Settles O43: both fault where the division does. -/
theorem divAndRemFault : Obligations.DivAndRemFault := by
  intro s src d
  simp only [List.forall_mem_cons, List.not_mem_nil, false_implies, implies_true, and_true]
  exact ⟨⟨fun h => exec_div_of_fault (divideFault_of_zero h),
    fun hn hd => exec_div_of_fault (divideFault_of_overflow hn hd)⟩,
    fun h => exec_rem_of_fault (divideFault_of_zero h),
    fun hn hd => exec_rem_of_fault (divideFault_of_overflow hn hd)⟩

/-- Settles O15: R0 as destination discards the result and nothing else. -/
theorem zeroRegisterReadsZero : Obligations.ZeroRegisterReadsZero := fun s =>
  ⟨rfl, fun _ => rfl, fun _ => ⟨_, rfl, rfl⟩, fun _ => ⟨_, rfl, rfl⟩,
    fun src h => (divAndRemFault s src 0 _ (.head _)).1 h, fun adr e he => (ldrLoadsTheWord s adr 0 0).2 e he⟩

/-- A number in the signed range is the value of its word. -/
theorem toInt_ofInt_of_fits {x : Int} (hlo : -2 ^ 31 ≤ x) (hhi : x < 2 ^ 31) :
    (BitVec.ofInt 32 x).toInt = x := by
  rw [BitVec.toInt_ofInt]
  exact Int.bmod_eq_of_le (by omega) (by omega)

/-- Unless the dividend is the least number and the divisor -1, the quotient is in the signed range. -/
theorem tdiv_fits {n d : Int} (hlo : -2 ^ 31 ≤ n) (hhi : n < 2 ^ 31) (h0 : d ≠ 0)
    (h : ¬ (n = -2 ^ 31 ∧ d = -1)) : -2 ^ 31 ≤ n.tdiv d ∧ n.tdiv d < 2 ^ 31 := by
  by_cases h1 : d = 1
  · rw [h1, Int.tdiv_one]
    exact ⟨hlo, hhi⟩
  by_cases hm1 : d = -1
  · rw [hm1, Int.tdiv_neg, Int.tdiv_one]
    omega
  · have hle : n.natAbs / d.natAbs ≤ n.natAbs / 2 := Nat.div_le_div_left (by omega) two_pos
    have habs : (n.tdiv d).natAbs = n.natAbs / d.natAbs := Int.natAbs_tdiv n d
    omega

/-- Where the quotient fits, it is the value of its word. -/
theorem toInt_quotient {n d : Word} (h0 : d.toInt ≠ 0) (h : ¬ (n.toInt = -2 ^ 31 ∧ d.toInt = -1)) :
    (quotient true n d).toInt = n.toInt.tdiv d.toInt := by
  obtain ⟨hlo, hhi⟩ := tdiv_fits n.le_toInt n.toInt_lt h0 h
  exact toInt_ofInt_of_fits hlo hhi

/-- The remainder of a dividend that is not positive is not positive. -/
theorem tmod_nonpos {n : Int} (h : n ≤ 0) (d : Int) : n.tmod d ≤ 0 := by
  have hneg := Int.tmod_nonneg d (Int.neg_nonneg_of_nonpos h)
  rw [Int.neg_tmod] at hneg
  omega

/-- The remainder is smaller than the dividend allows, so it is the value of its word. -/
theorem toInt_remainder (n d : Word) : (remainder true n d).toInt = n.toInt.tmod d.toInt := by
  have hn := n.toInt_lt
  have hn' := n.le_toInt
  have habs : (n.toInt.tmod d.toInt).natAbs = n.toInt.natAbs % d.toInt.natAbs := Int.natAbs_tmod ..
  have hle : n.toInt.natAbs % d.toInt.natAbs ≤ n.toInt.natAbs := Nat.mod_le _ _
  have hsign : n.toInt ≤ 0 → n.toInt.tmod d.toInt ≤ 0 := fun h => tmod_nonpos h _
  rw [remainder, intOf, if_pos rfl, intOf, if_pos rfl, ← Int.tmod_def]
  exact toInt_ofInt_of_fits (by omega) (by omega)

/-- Settles O42: the quotient and the remainder are those of the division that rounds toward zero. -/
theorem divAndRemPairUp : Obligations.DivAndRemPairUp := by
  intro s src d h0 h
  have hnone := divideFault_eq_none h0 h
  refine ⟨_, _, _, _, execDiv_eq_next.2 ⟨hnone, rfl⟩, onlyWrites_setReg_advance s d _ _,
    execRem_eq_next.2 ⟨hnone, rfl⟩, onlyWrites_setReg_advance s d _ _, ?_⟩
  rw [show Config.muldivSigned = true from rfl, toInt_quotient h0 h, toInt_remainder]
  refine ⟨Int.tdiv_mul_add_tmod _ _, ?_, Int.tmod_nonneg _, fun hn => tmod_nonpos hn _⟩
  rw [Int.natAbs_tmod]
  exact Nat.mod_lt _ (Int.natAbs_pos.2 h0)

/-! ### Uninterpreted results -/

/-- Settles O44: each writes its function's value. -/
theorem uninterpretedResults : Obligations.UninterpretedResults := by
  intro s src d
  simp only [List.forall_mem_cons, List.not_mem_nil, false_implies, implies_true, and_true]
  exact ⟨toDest_completes .., toReg_completes .., toDest_completes .., toDest_completes ..,
    toDest_completes .., toDest_completes .., toDest_completes .., toDest_completes ..⟩

/-- Settles O45: the two functions are a permutation and its inverse. -/
theorem unhashUndoesHash : Obligations.UnhashUndoesHash := by
  intro s t u r d e hd he
  refine ⟨fun h1 h2 => ?_, fun h1 h2 => ?_⟩ <;> cases h1 <;> cases h2
  · rw [State.advance_reg, State.reg_setReg_self, if_neg he]
    show Config.hashPerm.symm (((s.setReg d (Config.hashPerm (s.reg r))).advance false).reg d) = _
    rw [State.advance_reg, State.reg_setReg_self, if_neg hd, Equiv.symm_apply_apply]
  · rw [State.advance_reg, State.reg_setReg_self, if_neg he]
    show Config.hashPerm (((s.setReg d (Config.hashPerm.symm (s.reg r))).advance false).reg d) = _
    rw [State.advance_reg, State.reg_setReg_self, if_neg hd, Equiv.apply_symm_apply]

end Sys2Proof.Machine
end


/-! ## The SHIFT and BIT units, and the fused forms -/

section
namespace Sys2Proof.Machine

/-! ### Shifts -/

/-- A counted register result, at an admitted count. -/
theorem counted_toReg {v : Val} (hv : v.toNat ≤ 31) (d : Reg) (s : State) (f : Nat → Word)
    {P : Word → Prop} (hP : P (f v.toNat)) :
    ∃ t w, (withCount v s fun n => toReg d (f n) s) = .next t ∧ onlyWrites d w false s t ∧ P w := by
  rw [withCount_runs hv]
  exact ⟨_, _, rfl, onlyWrites_setReg_advance s d _ _, hP⟩

/-- A counted result of the shape `ri1, r2`, at an admitted count. -/
theorem counted_toDest {v : Val} (hv : v.toNat ≤ 31) (src : RI) (d : Reg) (s : State) (f : Nat → Word)
    {P : Word → Prop} (hP : P (f v.toNat)) :
    ∃ t w, (withCount v s fun n => toDest src d (f n) s) = .next t ∧
      onlyWrites d w (srcArg src) s t ∧ P w := by
  rw [withCount_runs hv]
  exact ⟨_, _, rfl, onlyWrites_setReg_advance s d _ _, hP⟩

/-- The shifts as arithmetic. -/
theorem toNat_shl (x : Word) (n : Nat) : (x <<< n).toNat = x.toNat * 2 ^ n % 2 ^ 32 := by
  rw [BitVec.toNat_shiftLeft, Nat.shiftLeft_eq]

theorem toNat_shr (x : Word) (n : Nat) : (x >>> n).toNat = x.toNat / 2 ^ n := by
  rw [BitVec.toNat_ushiftRight, Nat.shiftRight_eq_div_pow]

theorem toInt_sra (x : Word) (n : Nat) : (x.sshiftRight n).toInt = x.toInt / 2 ^ n := by
  rw [BitVec.toInt_sshiftRight, Int.shiftRight_eq_div_pow]
  norm_cast

/-- A word's natural number is its two's complement one modulo 2^32. -/
theorem toNat_eq_toInt_emod (x : Word) : (x.toNat : Int) = x.toInt % 2 ^ 32 := by
  have := x.isLt
  rw [toInt_eq_ite]
  split <;> omega

/-- Settles O46: each shift selects its row and writes the shifted word. -/
theorem shiftsAsArithmetic : Obligations.ShiftsAsArithmetic := by
  intro s v r d hv
  simp only [List.forall_mem_cons, List.not_mem_nil, false_implies, implies_true, and_true]
  refine ⟨⟨(Laws.fieldsOf_sel_and_mask 3 0 0b000 v).trans (by decide), rfl,
      counted_toReg hv d s (fun n => s.reg r <<< n) ?_⟩,
    ⟨(Laws.fieldsOf_sel_and_mask 3 0 0b010 v).trans (by decide), rfl,
      counted_toReg hv d s (fun n => s.reg r >>> n) ?_⟩,
    ⟨(Laws.fieldsOf_sel_and_mask 3 0 0b011 v).trans (by decide), rfl,
      counted_toReg hv d s (fun n => (s.reg r).sshiftRight n) ?_⟩⟩
  · rw [toNat_shl]
    norm_cast
  · have hlt := (s.reg r >>> v.toNat).isLt
    rw [toNat_shr] at hlt ⊢
    norm_cast
    exact (Nat.mod_eq_of_lt hlt).symm
  · rw [toNat_eq_toInt_emod, toInt_sra]

/-- Settles O48: a word operation truncates, so a truncation inside another is lost but under a right shift. -/
theorem fusedShiftsTruncate : Obligations.FusedShiftsTruncate := by
  intro s v src r d hv
  dsimp only
  simp only [List.forall_mem_cons, List.not_mem_nil, false_implies, implies_true, and_true]
  have hshr (x : Word) : x.toNat / 2 ^ v.toNat % 2 ^ 32 = x.toNat / 2 ^ v.toNat := by
    rw [← toNat_shr]
    exact BitVec.toNat_mod_cancel _
  refine ⟨counted_toDest hv src d s (fun n => (s.reg d * srcOf s src) <<< n) ?_,
    counted_toReg hv d s (fun n => (s.reg r * s.reg d) >>> n) ?_,
    counted_toDest hv src d s (fun n => s.reg d <<< n + srcOf s src) ?_,
    counted_toDest hv src d s (fun n => s.reg d >>> n + srcOf s src) ?_,
    counted_toReg hv d s (fun n => (s.reg r + s.reg d) <<< n) ?_,
    counted_toReg hv d s (fun n => (s.reg r + s.reg d) >>> n) ?_,
    counted_toDest hv src d s (fun n => srcOf s src <<< n * s.reg d) ?_,
    counted_toDest hv src d s (fun n => srcOf s src >>> n * s.reg d) ?_,
    counted_toDest hv src d s (fun n => (s.reg d * srcOf s src) <<< n) ?_,
    counted_toDest hv src d s (fun n => (s.reg d * srcOf s src) >>> n) ?_⟩
  · rw [toNat_shl, BitVec.toNat_mul, Nat.mod_mul_mod]
  · rw [toNat_shr, ← BitVec.toNat_mul, hshr]
  · rw [BitVec.toNat_add, toNat_shl, Nat.mod_add_mod]
  · rw [BitVec.toNat_add, toNat_shr]
  · rw [toNat_shl, BitVec.toNat_add, Nat.mod_mul_mod]
  · rw [toNat_shr, ← BitVec.toNat_add, hshr]
  · rw [BitVec.toNat_mul, toNat_shl, Nat.mod_mul_mod]
  · rw [BitVec.toNat_mul, toNat_shr]
  · rw [toNat_shl, BitVec.toNat_mul, Nat.mod_mul_mod]
  · rw [toNat_shr, ← BitVec.toNat_mul, hshr]

/-! ### Counting bits -/

/-- The leading zeros among the low `k` bits: there are as many, and the next bit is set. -/
theorem clzBelow_spec (v : Word) (k : Nat) : clzBelow v k ≤ k ∧
    (∀ j, j < clzBelow v k → v.getLsbD (k - 1 - j) = false) ∧
    (clzBelow v k < k → v.getLsbD (k - 1 - clzBelow v k) = true) := by
  induction k with
  | zero => exact ⟨Nat.le_refl 0, fun j hj => absurd hj (Nat.not_lt_zero j),
      fun h => absurd h (Nat.lt_irrefl 0)⟩
  | succ k ih =>
    obtain ⟨hle, hzeros, hone⟩ := ih
    rw [clzBelow]
    cases hk : v.getLsbD k with
    | true => exact ⟨Nat.zero_le _, fun j hj => absurd hj (Nat.not_lt_zero j), fun _ => hk⟩
    | false =>
      rw [if_neg Bool.false_ne_true]
      refine ⟨Nat.succ_le_succ hle, fun j hj => ?_, fun h => ?_⟩
      · cases j with
        | zero => exact hk
        | succ j =>
          rw [show k + 1 - 1 - (j + 1) = k - 1 - j by omega]
          exact hzeros j (Nat.lt_of_succ_lt_succ hj)
      · rw [show k + 1 - 1 - (clzBelow v k + 1) = k - 1 - clzBelow v k by omega]
        exact hone (Nat.lt_of_succ_lt_succ h)

/-- The set bits among the low `k` are the places below `k` where the bit is set. -/
theorem onesBelow_eq_countP (v : Word) (k : Nat) :
    onesBelow v k = (List.range k).countP fun j => v.getLsbD j := by
  induction k with
  | zero => rfl
  | succ k ih =>
    rw [onesBelow, ih, List.range_succ, List.countP_append, List.countP_singleton]

/-- The exclusive or of bits is the parity of their number. -/
theorem xorBelow_eq_parity (v : Word) (k : Nat) : xorBelow v k = decide (onesBelow v k % 2 = 1) := by
  induction k with
  | zero => rfl
  | succ k ih =>
    rw [xorBelow, ih, onesBelow]
    cases v.getLsbD k with
    | false => simp
    | true =>
      rw [Bool.xor_true, ← decide_not, if_pos rfl, decide_eq_decide]
      omega

/-- Settles O50: the loops of the model count what they name. -/
theorem bitCounts : Obligations.BitCounts := by
  intro s src d
  obtain ⟨hle, hzeros, hone⟩ := clzBelow_spec (srcOf s src) 32
  refine ⟨⟨_, _, rfl, onlyWrites_setReg_advance s d _ _, hle, hzeros, hone⟩, ?_, ?_⟩
  · rw [← onesBelow_eq_countP]
    exact toDest_completes ..
  · rw [← onesBelow_eq_countP]
    have hpar : (if xorBelow (srcOf s src) 32 then 1 else 0) =
        BitVec.ofNat 32 (onesBelow (srcOf s src) 32 % 2) := by
      rw [xorBelow_eq_parity]
      rcases Nat.mod_two_eq_zero_or_one (onesBelow (srcOf s src) 32) with h | h <;> rw [h] <;> rfl
    rw [← hpar]
    exact toDest_completes ..

end Sys2Proof.Machine
end
